-- ==== Sys2Proof/Word.lean ====
section
/-! DEFINITION. The word types of the block (00_scope.md R7, R8): bytes, 16-bit words, 9-bit counters. -/

namespace Sys2Proof

/-- A byte: 8 bits, unsigned (R7). -/
abbrev Byte := BitVec 8

/-- A 16-bit word: the CRC register, the host word, the answered data (R21, R74, R75). -/
abbrev Word := BitVec 16

/-- A byte counter of one frame, 9 bits holding 0 to 256 (R27, R29). -/
abbrev Count := BitVec 9

end Sys2Proof
end

