-- ==== Sys2Proof/Machine/Failure.lean ====
section
/-! DEFINITION. The failure taxonomy: outcome classes and cause codes (60_exceptions.md R210, R211). -/

namespace Sys2Proof

/-- The outcome class held in `res_class` (10_state.md R31, R210). Codes 5 to 7 are never held. -/
inductive ResClass where
  | none | io | communication | protocol | program
  deriving DecidableEq, Repr

/-- The cause held in `res_cause` (R32, R211). `badParameter` and `badPayload` are values of the
pure functions only and are never recorded in the block. -/
inductive Cause where
  | none | channelError | status | payloadTooLong | illegalOperation | badParameter
  | badLength | badCrc | unknownStatus | badPayload
  deriving DecidableEq, Repr

/-- The error value `Err(class, cause)` of a pure function (00_scope.md R10). -/
structure Failure where
  cls : ResClass
  cause : Cause
  deriving DecidableEq, Repr

/-- The class codes (30_encoding.md R91). -/
def classCode : ResClass → BitVec 3
  | .none => 0
  | .io => 1
  | .communication => 2
  | .protocol => 3
  | .program => 4

/-- The cause codes (R211). -/
def causeCode : Cause → Byte
  | .none => 0x00
  | .channelError => 0x01
  | .status => 0x02
  | .payloadTooLong => 0x10
  | .illegalOperation => 0x11
  | .badParameter => 0x12
  | .badLength => 0x20
  | .badCrc => 0x21
  | .unknownStatus => 0x22
  | .badPayload => 0x23

/-- The pairs of class and cause a failed exchange can record (R211, last paragraph). -/
def recordedFailures : List (ResClass × Cause) :=
  [(.io, .channelError), (.communication, .status), (.protocol, .status), (.program, .status),
   (.program, .payloadTooLong), (.program, .illegalOperation), (.program, .badLength),
   (.program, .badCrc), (.program, .unknownStatus)]

end Sys2Proof
end

