-- ==== Sys2Proof/Config.lean ====
section
/-! DEFINITION. The arguments of the model (00_scope.md R6): the names of the device statuses and of
the memory banks, the record `Params` that gives their byte codes, the operations, and the one value the
document leaves open. The values a machine starts with stand in Machine/Tables.lean. -/

namespace Sys2Proof

/-- The thirteen statuses the document names (44_status_classifier.md R160). -/
inductive StatusName where
  | ok | returnBeforeInventoryFinished | scanTimeOverflow | moreData
  | accessPasswordError | killTagError | killPasswordZero | commandNotSupported
  | poorCommunication | noTags
  | wrongLength | illegalCommand | parameterError
  deriving DecidableEq, Repr

/-- MemoryLocation, the four tag memory banks (42_payload_builders.md R130 (e)). -/
inductive MemLoc where
  | reserved | epc | tid | user
  deriving DecidableEq, Repr

/-- The closed set of operations (30_encoding.md R76, 41_command_codec.md R121). -/
inductive Operation where
  | inventory | readData | writeData | killTag | getReaderInformation
  deriving DecidableEq, Repr

/-- FREE VALUE (DESIGN CHOICE, log 21): the word-count byte that a builder puts before an EPC or write data of
`words` words when `words` is above 255. The document gives it no value: R82 rests on the payload limit, which a
builder does not check (R130 (f)). -/
opaque Config.wordCountBeyondByte (words : Nat) : Byte

/-- The open parameters `STATUS_CODE`, `STATUS_OTHER` and `MEMLOC_CODE` (R6, R77, R78; decisions
D18, D19, D24). `OK` and `NoTags` have no field: the source fixes their values. -/
structure Params where
  returnBeforeInventoryFinished : Byte
  scanTimeOverflow : Byte
  moreData : Byte
  accessPasswordError : Byte
  killTagError : Byte
  killPasswordZero : Byte
  commandNotSupported : Byte
  poorCommunication : Byte
  wrongLength : Byte
  illegalCommand : Byte
  parameterError : Byte
  /-- The set `STATUS_OTHER` of further enumerated statuses (R77); may be empty. -/
  statusOther : List Byte
  memReserved : Byte
  memEpc : Byte
  memTid : Byte
  memUser : Byte
  deriving DecidableEq, Repr

end Sys2Proof
end

