-- ==== Sys2Proof/Machine/Tables.lean ====
section
/-! DEFINITION. The tables of the protocol: parameter values (00_scope.md R6), operation codes
(30_encoding.md R76), status codes (R77) and memory bank codes (R78). -/

namespace Sys2Proof

/-- `MAX_PAYLOAD`: the most payload bytes of a command (R6, R122). -/
def maxPayload : Nat := 251

/-- `MIN_RSP_LENGTH`: the least length byte of a response (R6, D15). -/
def minRspLength : Nat := 5

/-- `READER_INFO_LEN` (R6, R190). -/
def readerInfoLen : Nat := 8

/-- The operation codes on the wire (R76). -/
def opInventory : Byte := 0x01
def opReadData : Byte := 0x02
def opWriteData : Byte := 0x03
def opKillTag : Byte := 0x05
def opGetReaderInformation : Byte := 0x21

/-- `OPCODE` (R6, R76). -/
def opcode : Operation → Byte
  | .inventory => opInventory
  | .readData => opReadData
  | .writeData => opWriteData
  | .killTag => opKillTag
  | .getReaderInformation => opGetReaderInformation

/-- The closed set of operation codes (R76, R85). -/
def operationCodes : List Byte :=
  [opInventory, opReadData, opWriteData, opKillTag, opGetReaderInformation]

/-- Whether a code byte is one of the five operation codes (R76, R174). -/
def isOperation (op : Byte) : Bool := operationCodes.contains op

/-- The defaults of the open parameters (R77 and R78, columns "default"; PRESUMED, log 1: values of
this reader family, from general knowledge). -/
def Params.defaults : Params where
  returnBeforeInventoryFinished := 0x01
  scanTimeOverflow := 0x02
  moreData := 0x03
  accessPasswordError := 0x05
  killTagError := 0x09
  killPasswordZero := 0x0A
  commandNotSupported := 0x0B
  poorCommunication := 0xFA
  wrongLength := 0xFD
  illegalCommand := 0xFE
  parameterError := 0xFF
  statusOther := [0x10, 0x11, 0x12, 0xF9]
  memReserved := 0x00
  memEpc := 0x01
  memTid := 0x02
  memUser := 0x03

/-- The named statuses, in the order of R77's table. -/
def statusNames : List StatusName :=
  [.ok, .returnBeforeInventoryFinished, .scanTimeOverflow, .moreData, .accessPasswordError,
   .killTagError, .killPasswordZero, .commandNotSupported, .poorCommunication, .noTags,
   .wrongLength, .illegalCommand, .parameterError]

/-- `STATUS_CODE` (R77): `OK` is 0x00 and `NoTags` is 0xFB in every machine. -/
def Params.statusCode (p : Params) : StatusName → Byte
  | .ok => 0x00
  | .returnBeforeInventoryFinished => p.returnBeforeInventoryFinished
  | .scanTimeOverflow => p.scanTimeOverflow
  | .moreData => p.moreData
  | .accessPasswordError => p.accessPasswordError
  | .killTagError => p.killTagError
  | .killPasswordZero => p.killPasswordZero
  | .commandNotSupported => p.commandNotSupported
  | .poorCommunication => p.poorCommunication
  | .noTags => 0xFB
  | .wrongLength => p.wrongLength
  | .illegalCommand => p.illegalCommand
  | .parameterError => p.parameterError

/-- The memory banks, in the order of R78. -/
def memLocs : List MemLoc := [.reserved, .epc, .tid, .user]

/-- `MEMLOC_CODE` (R78). -/
def Params.memlocCode (p : Params) : MemLoc → Byte
  | .reserved => p.memReserved
  | .epc => p.memEpc
  | .tid => p.memTid
  | .user => p.memUser

/-- The bank whose code is `b`, if any. -/
def Params.memlocDecode (p : Params) (b : Byte) : Option MemLoc :=
  memLocs.find? fun l => p.memlocCode l == b

/-- What the arguments must satisfy (R77, R78): distinct status codes, no member of `STATUS_OTHER`
equal to one of them, four distinct bank codes. -/
def Params.wf (p : Params) : Bool :=
  decide (statusNames.map p.statusCode).Nodup
    && p.statusOther.all (fun b => !(statusNames.map p.statusCode).contains b)
    && decide (memLocs.map p.memlocCode).Nodup

end Sys2Proof
end

