-- ==== Sys2Proof/Syntax.lean ====
section
/-! DEFINITION. The instructions: one constructor of `Instr` per row of spec/opcode_table.json, with
the operands the rules give it (30_encoding.md R70 to R80, R90). -/

namespace Sys2Proof

/-- ReadCommand, the parameter record of ReadData (42_payload_builders.md R130, R133), as a caller
supplies it: the builder judges it. -/
structure ReadCommand where
  epc : List Byte
  location : MemLoc
  startAddress : Byte
  count : Byte
  password : Option (List Byte)
  maskAddress : Option Byte
  maskLength : Option Byte
  deriving DecidableEq, Repr

/-- WriteCommand, the parameter record of WriteData (R130, R134). -/
structure WriteCommand where
  epc : List Byte
  location : MemLoc
  startAddress : Byte
  data : List Byte
  password : Option (List Byte)
  maskAddress : Option Byte
  maskLength : Option Byte
  deriving DecidableEq, Repr

/-- KillCommand, the parameter record of KillTag (R130, R135). -/
structure KillCommand where
  epc : List Byte
  password : Option (List Byte)
  maskAddress : Option Byte
  maskLength : Option Byte
  deriving DecidableEq, Repr

/-- A response frame as the channel delivers it (30_encoding.md R72), all but its status byte, which
the row's constructor gives: wire bytes 0, 1, 2, and `rest`, the bytes after the status (payload and
trailer). Nothing here is checked: VALIDATE judges the frame. -/
structure RspFrame where
  length : Byte
  address : Byte
  echo : Byte
  rest : List Byte
  deriving DecidableEq, Repr

/-- The five kinds of row of the opcode table (R70, R90). -/
inductive Format where
  | cmd | rsp | host | event | pseudo
  deriving DecidableEq, Repr

/-- The rows of spec/opcode_table.json. -/
inductive Instr where
  -- CMD rows (R71, R76): a logical command, its address and its parameter record
  | cmdInventory (address : Byte)
  | cmdReadData (address : Byte) (cmd : ReadCommand)
  | cmdWriteData (address : Byte) (cmd : WriteCommand)
  | cmdKillTag (address : Byte) (cmd : KillCommand)
  | cmdGetReaderInformation (address : Byte)
  -- RSP rows (R72, R77): a response frame with one status
  | statusOk (f : RspFrame)
  | statusReturnBeforeInventoryFinished (f : RspFrame)
  | statusScanTimeOverflow (f : RspFrame)
  | statusMoreData (f : RspFrame)
  | statusAccessPasswordError (f : RspFrame)
  | statusKillTagError (f : RspFrame)
  | statusKillPasswordZero (f : RspFrame)
  | statusCommandNotSupported (f : RspFrame)
  | statusPoorCommunication (f : RspFrame)
  | statusNoTags (f : RspFrame)
  | statusWrongLength (f : RspFrame)
  | statusIllegalCommand (f : RspFrame)
  | statusParameterError (f : RspFrame)
  | statusOther10 (f : RspFrame)
  | statusOther11 (f : RspFrame)
  | statusOther12 (f : RspFrame)
  | statusOtherF9 (f : RspFrame)
  | statusUnknown (status : Byte) (f : RspFrame)
  -- HOST rows (R74, R79)
  | crcInit
  | crcUpdate (b : Byte)
  | crcRead
  | cfgAddr (a : Byte)
  | txClear
  | txPush (b : Byte)
  | xchgStart (op : Byte)
  | xchgAck
  | rdPhase
  | rdResult
  | rdStatus
  | rdAddr
  | rdRxlen
  | rdTxlen
  | rdRsp (i : Byte)
  -- EVENT rows (R79)
  | chTxbyte
  | chRxbyteLength (b : Byte)
  | chRxbyteBody (b : Byte)
  | chIoerr
  | validate
  | reset
  -- PSEUDO rows (R90, R192 to R198)
  | pseudoCrc (message : List Byte)
  | pseudoXchg (op : Byte) (payload : List Byte)
  | readerInformation
  | inventory
  | readData (cmd : ReadCommand)
  | writeData (cmd : WriteCommand)
  | kill (cmd : KillCommand)
  deriving DecidableEq, Repr

/-- The format of an instruction's row. -/
def Instr.format : Instr → Format
  | .cmdInventory _ | .cmdReadData _ _ | .cmdWriteData _ _ | .cmdKillTag _ _
  | .cmdGetReaderInformation _ => .cmd
  | .statusOk _ | .statusReturnBeforeInventoryFinished _ | .statusScanTimeOverflow _
  | .statusMoreData _ | .statusAccessPasswordError _ | .statusKillTagError _
  | .statusKillPasswordZero _ | .statusCommandNotSupported _ | .statusPoorCommunication _
  | .statusNoTags _ | .statusWrongLength _ | .statusIllegalCommand _ | .statusParameterError _
  | .statusOther10 _ | .statusOther11 _ | .statusOther12 _ | .statusOtherF9 _
  | .statusUnknown _ _ => .rsp
  | .crcInit | .crcUpdate _ | .crcRead | .cfgAddr _ | .txClear | .txPush _ | .xchgStart _
  | .xchgAck | .rdPhase | .rdResult | .rdStatus | .rdAddr | .rdRxlen | .rdTxlen
  | .rdRsp _ => .host
  | .chTxbyte | .chRxbyteLength _ | .chRxbyteBody _ | .chIoerr | .validate | .reset => .event
  | .pseudoCrc _ | .pseudoXchg _ _ | .readerInformation | .inventory | .readData _
  | .writeData _ | .kill _ => .pseudo

end Sys2Proof
end

