-- ==== Sys2Proof/Machine/Builders.lean ====
section
/-! DEFINITION. The operation payload builders (42_payload_builders.md R130 to R135). -/

namespace Sys2Proof

/-- `Err(Program, BadParameter)`, the one error of a builder (R130). -/
def badParameter : Failure := ⟨.program, .badParameter⟩

/-- R130 (a): the EPC length is even. The same test serves the write data (R134). -/
def evenLength (bytes : List Byte) : Bool := bytes.length % 2 == 0

/-- A word count, `len / 2` as one byte (30_encoding.md R82). No byte holds a count above 255 (512 bytes or more,
which no frame can carry, R130 (f)) and the document gives none: there the byte is free (log 21). -/
def wordCount (bytes : List Byte) : Byte :=
  if bytes.length / 2 < 256 then BitVec.ofNat 8 (bytes.length / 2)
  else Config.wordCountBeyondByte (bytes.length / 2)

/-- R130 (b): the four password bytes, zero when absent; no other length than 4 is accepted. -/
def passwordField : Option (List Byte) → Option (List Byte)
  | none => some [0, 0, 0, 0]
  | some pw => if pw.length = 4 then some pw else none

/-- R130 (c): both mask bytes or neither; exactly one is rejected. -/
def maskField : Option Byte → Option Byte → Option (List Byte)
  | none, none => some []
  | some address, some length => some [address, length]
  | _, _ => none

/-- `build_inventory()` (R131). -/
def buildInventory : List Byte := []

/-- `build_get_reader_information()` (R132). -/
def buildGetReaderInformation : List Byte := []

/-- `build_read(cmd)` (R133). -/
def buildRead (p : Params) (cmd : ReadCommand) : Except Failure (List Byte) :=
  match evenLength cmd.epc, passwordField cmd.password, maskField cmd.maskAddress cmd.maskLength with
  | true, some pw4, some mask =>
    .ok (wordCount cmd.epc :: (cmd.epc
      ++ [p.memlocCode cmd.location, cmd.startAddress, cmd.count] ++ pw4 ++ mask))
  | _, _, _ => .error badParameter

/-- `build_write(cmd)` (R134). -/
def buildWrite (p : Params) (cmd : WriteCommand) : Except Failure (List Byte) :=
  match evenLength cmd.epc && evenLength cmd.data, passwordField cmd.password,
      maskField cmd.maskAddress cmd.maskLength with
  | true, some pw4, some mask =>
    .ok (wordCount cmd.data :: wordCount cmd.epc :: (cmd.epc
      ++ [p.memlocCode cmd.location, cmd.startAddress] ++ cmd.data ++ pw4 ++ mask))
  | _, _, _ => .error badParameter

/-- `build_kill(cmd)` (R135). -/
def buildKill (cmd : KillCommand) : Except Failure (List Byte) :=
  match evenLength cmd.epc, passwordField cmd.password, maskField cmd.maskAddress cmd.maskLength with
  | true, some pw4, some mask => .ok (wordCount cmd.epc :: (cmd.epc ++ pw4 ++ mask))
  | _, _, _ => .error badParameter

end Sys2Proof
end

