-- ==== Sys2Proof/Machine/Status.lean ====
section
/-! DEFINITION. The status classifier (44_status_classifier.md R160 to R164). -/

namespace Sys2Proof

/-- A member of the status enumeration: a named one, or a member of `STATUS_OTHER` (R160, R161). -/
inductive Status where
  | named (n : StatusName)
  | other (b : Byte)
  deriving DecidableEq, Repr

/-- The four outcomes of `classify` (R162). -/
inductive Verdict where
  | success | communication | protocol | program
  deriving DecidableEq, Repr

/-- `status_decode(b)`; `none` is "unknown" (R161). -/
def statusDecode (p : Params) (b : Byte) : Option Status :=
  match statusNames.find? fun n => p.statusCode n == b with
  | some n => some (.named n)
  | none => if p.statusOther.contains b then some (.other b) else none

/-- `classify(s)` (R162). -/
def classify : Status → Verdict
  | .named .ok | .named .returnBeforeInventoryFinished | .named .scanTimeOverflow
  | .named .moreData => .success
  | .named .poorCommunication | .named .noTags => .communication
  | .named .accessPasswordError | .named .killTagError | .named .killPasswordZero
  | .named .commandNotSupported => .protocol
  | .named .wrongLength | .named .illegalCommand | .named .parameterError | .other _ => .program

/-- A status is successful when its class is success, and failed otherwise (R163). -/
def successful (s : Status) : Bool := classify s == .success

/-- The class recorded for a failed status (R179 step 4). -/
def Verdict.resClass : Verdict → ResClass
  | .success => .none
  | .communication => .communication
  | .protocol => .protocol
  | .program => .program

end Sys2Proof
end

