-- ==== Sys2Proof/Machine/Codec.lean ====
section
/-! DEFINITION. The command framer (41_command_codec.md R120, R121) and the response parser
(43_response_codec.md R150, R151) as functions over byte sequences. -/

namespace Sys2Proof

/-- The two bytes of the trailer, low byte first (20_memory.md R55, 30_encoding.md R83). -/
def trailer (c : Word) : List Byte := [lo8 c, hi8 c]

/-- `encode_frame(address, code, body)` (R120). -/
def encodeFrame (address code : Byte) (body : List Byte) : Except Failure (List Byte) :=
  if body.length > maxPayload then .error ⟨.program, .payloadTooLong⟩
  else
    let head := BitVec.ofNat 8 (body.length + 4) :: address :: code :: body
    .ok (head ++ trailer (crc head))

/-- `encode_command(address, operation, payload)` (R121): the operation ranges over the closed set. -/
def encodeCommand (address : Byte) (operation : Operation) (payload : List Byte) : Except Failure (List Byte) :=
  encodeFrame address (opcode operation) payload

/-- What `check_frame` yields on success (R150). -/
structure Frame where
  address : Byte
  code : Byte
  body : List Byte
  deriving DecidableEq, Repr

/-- The CRC test (b) of R150 and R151: the CRC of all but the last two bytes of `buf` against the
last two, low byte first. -/
def trailerOk (buf : List Byte) : Bool :=
  crc (buf.take (buf.length - 2)) == le16 (buf.getD (buf.length - 2) 0) (buf.getD (buf.length - 1) 0)

/-- The length test (a) of R150: the length byte counts the bytes that follow it. -/
def lengthOk (buf : List Byte) : Bool :=
  decide (1 ≤ buf.length) && decide ((buf.getD 0 0).toNat = buf.length - 1)

/-- `check_frame(buf)` (R150). -/
def checkFrame (buf : List Byte) : Except Failure Frame :=
  if !lengthOk buf then .error ⟨.program, .badLength⟩
  else if buf.length - 1 < 4 then .error ⟨.program, .badLength⟩
  else if !trailerOk buf then .error ⟨.program, .badCrc⟩
  else .ok ⟨buf.getD 1 0, buf.getD 2 0, (buf.drop 3).take (buf.length - 5)⟩

/-- What `decode_response` exposes on success (R151). -/
structure Response where
  address : Byte
  operationEcho : Byte
  status : Status
  payload : List Byte
  deriving DecidableEq, Repr

/-- `decode_response(buf)` (R151). -/
def decodeResponse (p : Params) (buf : List Byte) : Except Failure Response :=
  if !lengthOk buf then .error ⟨.program, .badLength⟩
  else if buf.length - 1 < minRspLength then .error ⟨.program, .badLength⟩
  else if !trailerOk buf then .error ⟨.program, .badCrc⟩
  else
    match statusDecode p (buf.getD 3 0) with
    | none => .error ⟨.program, .unknownStatus⟩
    | some s => .ok ⟨buf.getD 1 0, buf.getD 2 0, s, (buf.drop 4).take (buf.length - 6)⟩

end Sys2Proof
end

