-- ==== Sys2Proof/Machine/Parsers.lean ====
section
/-! DEFINITION. The payload parsers a host applies to a validated response (45_exchange_fsm.md R189 to
R191). -/

namespace Sys2Proof

/-- `Err(Program, BadPayload)`, the one error of a payload parser (R189, R190). -/
def badPayload : Failure := ⟨.program, .badPayload⟩

/-- The loop of R189: `count` records of one length byte and that many tag bytes; bytes after the last
record are left over. -/
def parseTags : Nat → List Byte → Except Failure (List (List Byte))
  | 0, _ => .ok []
  | _ + 1, [] => .error badPayload
  | count + 1, l :: bytes =>
    if bytes.length < l.toNat then .error badPayload
    else
      match parseTags count (bytes.drop l.toNat) with
      | .ok tags => .ok (bytes.take l.toNat :: tags)
      | .error e => .error e

/-- `parse_inventory(status, payload)` (R189). -/
def parseInventory (status : Option Status) (payload : List Byte) :
    Except Failure (List (List Byte)) :=
  if status = some (.named .noTags) then .ok []
  else
    match payload with
    | [] => .error badPayload
    | count :: bytes => parseTags count.toNat bytes

/-- The ReaderInformation record (R190); every field is raw. -/
structure ReaderInfo where
  version : List Byte
  readerType : Byte
  protocols : Byte
  maxFrequency : Byte
  minFrequency : Byte
  power : Byte
  scanTime : Byte
  deriving DecidableEq, Repr

/-- `parse_reader_information(payload)` (R190). -/
def parseReaderInformation (payload : List Byte) : Except Failure ReaderInfo :=
  if payload.length ≠ readerInfoLen then .error badPayload
  else .ok
    { version := payload.take 2
      readerType := payload.getD 2 0
      protocols := payload.getD 3 0
      maxFrequency := payload.getD 4 0
      minFrequency := payload.getD 5 0
      power := payload.getD 6 0
      scanTime := payload.getD 7 0 }

/-- `parse_read_data(payload)`: the raw payload (R191). -/
def parseReadData (payload : List Byte) : List Byte := payload

end Sys2Proof
end

