-- ==== Sys2Proof/Machine/State.lean ====
section
/-! DEFINITION. The state of the block (10_state.md R20 to R33) with the two wire streams (20_memory.md
R50), the arguments of the model, and what stands at the block's ports; the reasons a step can stop; the
state after reset (R41). -/

namespace Sys2Proof.Machine

/-- The phase of the exchange sequencer (R23). -/
inductive Phase where
  | idle | sending | awaitingLength | awaitingBody | validating | success | failed
  deriving DecidableEq, Repr

/-- One of the two byte buffers: (index, byte) cells, indexes strictly rising. An index that is not
listed holds no value: nothing has written it (R26, R30, R41; log 2). -/
abbrev Memory := List Host.Cell

/-- The two buffers a step addresses (R10, R50). -/
inductive Space where
  | txbuf | rxbuf
  deriving DecidableEq, Repr

/-- The answer codes of the host port (R75). -/
inductive RCode where
  | ok | refused | illegal | range
  deriving DecidableEq, Repr

/-- A host answer, `respond(rcode, data)` (R75). -/
structure Answer where
  rcode : RCode
  data : Word
  deriving DecidableEq, Repr

/-- A pseudo-operation a host asks for (R90). -/
inductive Pseudo where
  | crc (message : List Byte)
  | xchg (op : Byte) (payload : List Byte)
  | readerInformation
  | inventory
  | readData (cmd : ReadCommand)
  | writeData (cmd : WriteCommand)
  | kill (cmd : KillCommand)
  deriving DecidableEq, Repr

/-- What the host offers at one moment: a host word (R74), the bytes of a command frame it wants sent
(R71; log 8), or a pseudo-operation (R90). -/
inductive HostOffer where
  | word (w : Word)
  | command (bytes : List Byte)
  | pseudo (p : Pseudo)
  deriving DecidableEq, Repr

/-- What stands at the block's ports at one moment (60_exceptions.md R217; log 6). -/
structure Moment where
  /-- the input `rst` -/
  rst : Bool
  /-- the channel raises `io_err` -/
  ioErr : Bool
  /-- the channel takes and delivers bytes at this moment -/
  chan : Bool
  /-- the internal event may happen at this moment (R217: a run may place VALIDATE later) -/
  internal : Bool
  /-- bytes that arrive in the channel at this moment -/
  bytes : List Byte
  /-- a whole response frame that the channel delivers at this moment -/
  frame : Option (List Byte)
  /-- what the host offers -/
  host : Option HostOffer
  deriving DecidableEq, Repr

/-- The pseudo-operation whose host is waiting for the end of an exchange (R192 to R197). -/
inductive Task where
  | xchg | readerInformation | inventory | readData | writeData | kill
  deriving DecidableEq, Repr

/-- What a pseudo-operation or a builder gives its caller (R192 to R197). An error carries the status
byte when it comes from an exchange. -/
inductive HostResult where
  | exchange (status : Byte) (payload : List Byte)
  | info (r : ReaderInfo)
  | tags (tags : List (List Byte))
  | data (bytes : List Byte)
  | unit
  | error (cls : ResClass) (cause : Cause) (status : Option Byte)
  deriving DecidableEq, Repr

/-- The whole state, plain data. -/
structure State where
  /-- R21 -/
  crc : Word
  /-- R22 -/
  addr : Byte
  /-- R23 -/
  phase : Phase
  /-- R24 -/
  txop : Byte
  /-- R25, 0 to 252 -/
  txlen : Byte
  /-- R26 -/
  txbuf : Memory
  /-- R27, 0 to 256 -/
  txidx : Count
  /-- R28 -/
  rxlen : Byte
  /-- R29, 0 to 256 -/
  rxcnt : Count
  /-- R30 -/
  rxbuf : Memory
  /-- R31 -/
  resClass : ResClass
  /-- R32 -/
  resCause : Cause
  /-- R33 -/
  resStatus : Byte
  /-- the transmit stream: the bytes emitted so far, in order (R50 (3)) -/
  txStream : List Byte
  /-- the receive stream: the bytes the channel holds, in order (R50 (4), R53) -/
  rxStream : List Byte
  /-- the arguments of the model (R6); no step changes them (log 1) -/
  params : Params
  /-- model's own: the last host answer (R75; log 14) -/
  answer : Option Answer
  /-- model's own: whether the channel takes and delivers bytes (log 16) -/
  chanReady : Bool
  /-- model's own: what will stand at the ports, moment by moment (log 6) -/
  moments : List Moment
  /-- model's own: the pseudo-operation that waits (log 13) -/
  task : Option Task
  /-- model's own: the last result of a pseudo-operation or builder (log 13) -/
  result : Option HostResult
  deriving DecidableEq, Repr

/-- Why a step stops. The spec gives the block no stop of its own: these are the model's, and no state
the block can reach meets one. -/
inductive Fault where
  /-- A buffer byte that nothing has written was read. Raised by `memRead`. SAFE: the spec leaves the
  byte unspecified (R26, R30, R41; log 2). -/
  | unwrittenByte
  /-- An index outside the buffer. Raised by `memRead` and `memWrite`. SAFE: the spec says there is no
  such byte (R50; log 4). -/
  | outsideBuffer
  /-- A command byte past the end of the frame. Raised by `commandByte`. SAFE: R175 gives wire bytes 0
  to `n` only (log 4). -/
  | noSuchWireByte
  deriving DecidableEq, Repr

/-- Why a step is refused. -/
inductive Refusal where
  /-- An instruction without a meaning. Raised by a refused arm of `exec` only; there is none. SAFE. -/
  | notModelled (mnemonic : String)
  deriving DecidableEq, Repr

/-- The outcome of a meaning. -/
abbrev Result := Host.Outcome State Fault Refusal

/-- The machine after reset: the table of R41; buffers unspecified, so nothing is listed (log 2); the
model's own fields as log 1, log 15 and log 16 say. -/
def State.reset : State where
  crc := 0xFFFF
  addr := 0x00
  phase := .idle
  txop := 0x00
  txlen := 0
  txbuf := []
  txidx := 0
  rxlen := 0
  rxcnt := 0
  rxbuf := []
  resClass := .none
  resCause := .none
  resStatus := 0x00
  txStream := []
  rxStream := []
  params := Params.defaults
  answer := none
  chanReady := true
  moments := []
  task := none
  result := none

end Sys2Proof.Machine
end

