-- ==== Sys2Proof/Machine/Flags.lean ====
section
/-! DEFINITION. What is computed from the state and is no state: the outputs of the block (10_state.md
R38), the codes a host reads (30_encoding.md R75, R91), the host register map (R39) and the response
views (R34). -/

namespace Sys2Proof.Machine

/-- The phase codes (R23, R91). -/
def phaseCode : Phase → BitVec 3
  | .idle => 0
  | .sending => 1
  | .awaitingLength => 2
  | .awaitingBody => 3
  | .validating => 4
  | .success => 5
  | .failed => 6

/-- The answer codes (R75, R91). -/
def rcodeCode : RCode → BitVec 2
  | .ok => 0
  | .refused => 1
  | .illegal => 2
  | .range => 3

/-- The output `busy` (R38). -/
def busy (s : State) : Bool := s.phase != .idle

/-- The output `done` (R38). -/
def done (s : State) : Bool := s.phase == .success || s.phase == .failed

/-- The output `tx_valid`: a byte is offered exactly in Sending (R175). -/
def txValid (s : State) : Bool := s.phase == .sending

/-- The output `rx_ready`: asserted exactly in AwaitingLength and AwaitingBody (R176). -/
def rxReady (s : State) : Bool := s.phase == .awaitingLength || s.phase == .awaitingBody

/-- `RESULT`: the class in bits 10:8, the cause in bits 7:0, zeros above (R39, R182). -/
def resultWord (s : State) : Word :=
  ((0 : BitVec 5) ++ classCode s.resClass ++ causeCode s.resCause : BitVec (5 + 3 + 8))

/-- The 16-bit read data of the host register with number `no` (R39): the field in the low bits, zeros
above. -/
def hostRegister (s : State) : Nat → Option Word
  | 0 => some s.crc
  | 1 => some (s.addr.setWidth 16)
  | 2 => some ((phaseCode s.phase).setWidth 16)
  | 3 => some (resultWord s)
  | 4 => some (s.resStatus.setWidth 16)
  | 5 => some (s.rxlen.setWidth 16)
  | 6 => some (s.txlen.setWidth 16)
  | _ => none

end Sys2Proof.Machine
end

