-- ==== Sys2Proof/Machine/Operands.lean ====
section
/-! DEFINITION. Operand forms: the header word of a frame (30_encoding.md R70) and the operation-to-phase
table of R79. -/

namespace Sys2Proof.Machine

/-- `H = {byte3, byte2, byte1, byte0}` of a whole frame (R70); byte 3 counts 0 where the frame has none before
its two trailer bytes. -/
def headerWord (frame : List Byte) : BitVec 32 :=
  ((frame.take (frame.length - 2)).getD 3 0 ++ frame.getD 2 0 ++ frame.getD 1 0 ++ frame.getD 0 0 : BitVec (8 + 8 + 8 + 8))

/-- The operation code of a command frame: bits 23:16 of its header word (R71). -/
def headerOperation (h : BitVec 32) : Byte := h.extractLsb' 16 8

/-- The status of a response frame: bits 31:24 of its header word (R72). -/
def headerStatus (h : BitVec 32) : Byte := h.extractLsb' 24 8

/-- The legal phases of the operations and events (R79); `CH.IOERR` is ignored outside its own. Rows of
the other formats are no operations of R79. -/
def legalIn : Instr → Phase → Bool
  | .crcInit, ph | .crcUpdate _, ph | .crcRead, ph | .cfgAddr _, ph | .txClear, ph
  | .txPush _, ph | .xchgStart _, ph => ph == .idle
  | .xchgAck, ph | .rdStatus, ph => ph == .success || ph == .failed
  | .rdPhase, _ | .rdResult, _ | .rdAddr, _ | .rdTxlen, _ => true
  | .rdRxlen, ph | .rdRsp _, ph => ph == .success
  | .chTxbyte, ph => ph == .sending
  | .chRxbyteLength _, ph => ph == .awaitingLength
  | .chRxbyteBody _, ph => ph == .awaitingBody
  | .chIoerr, ph => ph == .sending || ph == .awaitingLength || ph == .awaitingBody
  | .validate, ph => ph == .validating
  | .reset, _ => true
  | _, _ => false

end Sys2Proof.Machine
end

