-- ==== Sys2Proof/Machine/Ops.lean ====
section
/-! DEFINITION. The shared operations: buffers (20_memory.md R50 to R52, R59), the host answer
(30_encoding.md R75), the refusal by phase (45_exchange_fsm.md R188), failure entry and the way back
(60_exceptions.md R218, R220), reset (70_reset_and_hazards.md R240), and sequencing of steps. -/

namespace Sys2Proof.Machine

/-! ## Buffers -/

/-- The byte at index `i`, if one has been written. -/
def Memory.read : Memory → Nat → Option Byte
  | [], _ => none
  | (a, b) :: m, i => if a = i then some b else Memory.read m i

/-- The buffer with byte `v` at index `i`. -/
def Memory.write : Memory → Nat → Byte → Memory
  | [], i, v => [(i, v)]
  | (a, b) :: m, i, v =>
    if i < a then (i, v) :: (a, b) :: m
    else if i = a then (i, v) :: m
    else (a, b) :: Memory.write m i v

/-- The canonical form: indexes strictly rising. An unlisted index holds no value, so no listed entry can
equal what an unlisted one reads as. -/
def Memory.wf : Memory → Bool
  | [] => true
  | [_] => true
  | (a, _) :: (b, v) :: m => decide (a < b) && Memory.wf ((b, v) :: m)

/-- The bytes at indexes 0 to `n - 1`, zero standing for one that nothing has written: used by the views
of R34 and by invariants, never by a step. -/
def Memory.span (m : Memory) (n : Nat) : List Byte := (List.range n).map fun i => (m.read i).getD 0

/-- The sizes `TXBUF_SIZE` and `RXBUF_SIZE` (R6, R50). -/
def Space.size : Space → Nat
  | .txbuf => 251
  | .rxbuf => 256

/-- The contents of a buffer. -/
def State.buffer (s : State) : Space → Memory
  | .txbuf => s.txbuf
  | .rxbuf => s.rxbuf

/-- `MemRead(space, i, 1)` (R10, R59). -/
def memRead (sp : Space) (i : Nat) (s : State) : Except Fault Byte :=
  if i < sp.size then
    match (s.buffer sp).read i with
    | some b => .ok b
    | none => .error .unwrittenByte
  else .error .outsideBuffer

/-- `MemWrite(space, i, 1, v)` (R10, R59). -/
def memWrite (sp : Space) (i : Nat) (v : Byte) (s : State) : Except Fault State :=
  if i < sp.size then
    match sp with
    | .txbuf => .ok { s with txbuf := s.txbuf.write i v }
    | .rxbuf => .ok { s with rxbuf := s.rxbuf.write i v }
  else .error .outsideBuffer

/-! ## Sequencing -/

/-- Go on with `k` from the next state; a stop stays a stop. -/
def andThen (r : Result) (k : State → Result) : Result :=
  match r with
  | .next s => k s
  | .fault f => .fault f
  | .refused q => .refused q

/-- Go on with a value, or stop with a fault. -/
def withValue {α : Type} (e : Except Fault α) (k : α → Result) : Result :=
  match e with
  | .ok a => k a
  | .error f => .fault f

/-- One operation for each element of a list, in order. -/
def forEach {α : Type} (op : α → State → Result) : List α → State → Result
  | [], s => .next s
  | x :: xs, s => andThen (op x s) (forEach op xs)

/-! ## The host port -/

/-- `respond(rcode, data)` (R10, R75). -/
def respond (rcode : RCode) (data : Word) (s : State) : State := { s with answer := some ⟨rcode, data⟩ }

/-- A host operation that is legal in the phases `legal` accepts, and answered `REFUSED` with nothing
changed in the others (R188). -/
def inPhase (legal : Phase → Bool) (s : State) (k : Result) : Result :=
  if legal s.phase then k else .next (respond .refused 0 s)

/-- A host operation legal in Idle only. -/
def inIdle (s : State) (k : Result) : Result := inPhase (· == .idle) s k

/-- A host operation legal once an exchange has ended. -/
def inDone (s : State) (k : Result) : Result := inPhase (fun ph => ph == .success || ph == .failed) s k

/-- A host operation legal in Success only. -/
def inSuccess (s : State) (k : Result) : Result := inPhase (· == .success) s k

/-! ## Failure entry and the way back -/

/-- `raise Fail(class, cause)`: one atomic action; nothing else is saved or changed (R10, R218). -/
def raiseFail (cls : ResClass) (cause : Cause) (s : State) : State :=
  { s with phase := .failed, resClass := cls, resCause := cause }

/-- The result registers cleared, as `XCHG.START` and `XCHG.ACK` do (R174, R180). -/
def clearResult (s : State) : State :=
  { s with resClass := .none, resCause := .none, resStatus := 0x00 }

/-- The way back from Success or Failed to Idle, the state change of `XCHG.ACK` (R180, R220). -/
def acknowledge (s : State) : State :=
  clearResult { s with phase := .idle, crc := crcSeed, txlen := 0 }

/-! ## Reset -/

/-- The reset of the block (R240). The buffers' content is unspecified afterwards, so nothing stays
listed (log 3); the streams, the arguments and the model's own fields are not the block's registers and
stay (R241; log 18). -/
def resetBlock (s : State) : State :=
  { s with
    crc := 0xFFFF, addr := 0x00, phase := .idle, txop := 0x00, txlen := 0, txidx := 0, rxlen := 0,
    rxcnt := 0, resClass := .none, resCause := .none, resStatus := 0x00, txbuf := [], rxbuf := [] }

/-! ## The channel -/

/-- `emit b` (R10): the byte joins the transmit stream. -/
def emit (b : Byte) (s : State) : State := { s with txStream := s.txStream ++ [b] }

/-- A byte the block does not take stays in the channel, in front (R53). -/
def leaveInChannel (b : Byte) (s : State) : State := { s with rxStream := b :: s.rxStream }

/-- The `CH.TXBYTE` byte at wire index `txidx` (R175): length, address, operation code, payload, CRC low,
CRC high. -/
def commandByte (s : State) : Except Fault Byte :=
  let n := s.txlen.toNat + 4
  let i := s.txidx.toNat
  if i = 0 then .ok (BitVec.ofNat 8 n)
  else if i = 1 then .ok s.addr
  else if i = 2 then .ok s.txop
  else if i + 2 ≤ n then memRead .txbuf (i - 3) s
  else if i + 1 = n then .ok (lo8 s.crc)
  else if i = n then .ok (hi8 s.crc)
  else .error .noSuchWireByte

/-! ## Views -/

/-- The response views `rsp_address`, `rsp_operation_echo`, `rsp_status`, `rsp_payload` (R34): defined in
phase Success only. -/
structure RspView where
  address : Byte
  operationEcho : Byte
  status : Byte
  payload : List Byte
  deriving DecidableEq, Repr

/-- R34. -/
def rspView (s : State) : Option RspView :=
  if s.phase = .success then
    some ⟨(s.rxbuf.read 1).getD 0, (s.rxbuf.read 2).getD 0, (s.rxbuf.read 3).getD 0,
      (s.rxbuf.span (s.rxlen.toNat - 1)).drop 4⟩
  else none

/-- `rsp_payload_len = rxlen - 5`, defined in phase Success only (R34). -/
def rspPayloadLen (s : State) : Option Nat :=
  if s.phase = .success then some (s.rxlen.toNat - 5) else none

end Sys2Proof.Machine
end

