-- ==== Sys2Proof/Machine/Channel.lean ====
section
/-! DEFINITION. The events of the block: the channel's (45_exchange_fsm.md R175 to R178), VALIDATE (R179)
and RESET (70_reset_and_hazards.md R240). Outside its phases an event does not happen (log 17). -/

namespace Sys2Proof.Machine

/-- `CH.TXBYTE` (R175). -/
def execChTxbyte (s : State) : Result :=
  if s.phase = .sending then
    withValue (commandByte s) fun b =>
      let n := s.txlen.toNat + 4
      let i := s.txidx.toNat
      let s := emit b { s with txidx := BitVec.ofNat 9 (i + 1) }
      let s := if i + 2 ≤ n then { s with crc := crcByte s.crc b } else s
      .next (if i = n then { s with phase := .awaitingLength, crc := crcSeed, rxcnt := 0 } else s)
  else .next s

/-- `CH.RXBYTE b` in phase AwaitingLength (R176). In any other phase the byte is not taken by this event
and stays in the channel (R53). -/
def execChRxbyteLength (b : Byte) (s : State) : Result :=
  if s.phase = .awaitingLength then
    withValue (memWrite .rxbuf 0 b s) fun s =>
      .next
        { s with
          rxlen := b
          rxcnt := 1
          crc := if b.toNat ≥ 2 then crcByte s.crc b else s.crc
          phase := if b = 0 then .validating else .awaitingBody }
  else .next (leaveInChannel b s)

/-- `CH.RXBYTE b` in phase AwaitingBody (R177). In any other phase the byte is not taken by this event and
stays in the channel (R53). -/
def execChRxbyteBody (b : Byte) (s : State) : Result :=
  if s.phase = .awaitingBody then
    let i := s.rxcnt.toNat
    withValue (memWrite .rxbuf i b s) fun s =>
      .next
        { s with
          crc := if i + 2 ≤ s.rxlen.toNat then crcByte s.crc b else s.crc
          rxcnt := BitVec.ofNat 9 (i + 1)
          phase := if i = s.rxlen.toNat then .validating else s.phase }
  else .next (leaveInChannel b s)

/-- `CH.IOERR` (R178): dropped outside Sending, AwaitingLength and AwaitingBody (R215). -/
def execChIoerr (s : State) : Result :=
  if s.phase = .sending ∨ s.phase = .awaitingLength ∨ s.phase = .awaitingBody then
    .next (raiseFail .io .channelError s)
  else .next s

/-- Step 4 of `VALIDATE`: the classification of a known status (R179, R162, R164). -/
def judgeStatus (st : Status) (s : State) : State :=
  if classify st = .success then { s with phase := .success }
  else if st = .named .noTags ∧ s.txop = opInventory then { s with phase := .success }
  else raiseFail (classify st).resClass .status s

/-- `VALIDATE` (R179): length, then CRC, then status (R216). -/
def execValidate (s : State) : Result :=
  if s.phase = .validating then
    let n := s.rxlen.toNat
    if n < minRspLength then .next (raiseFail .program .badLength s)
    else
      withValue (memRead .rxbuf (n - 1) s) fun lo =>
      withValue (memRead .rxbuf n s) fun hi =>
        if s.crc ≠ le16 lo hi then .next (raiseFail .program .badCrc s)
        else
          withValue (memRead .rxbuf 3 s) fun b =>
            let s := { s with resStatus := b }
            match statusDecode s.params b with
            | none => .next (raiseFail .program .unknownStatus s)
            | some st => .next (judgeStatus st s)
  else .next s

/-- `RESET` (R240). -/
def execReset (s : State) : Result := .next (resetBlock s)

end Sys2Proof.Machine
end

