-- ==== Sys2Proof/Machine/Control.lean ====
section
/-! DEFINITION. Configuration, staging, start and end of an exchange (45_exchange_fsm.md R171 to R174,
R180). -/

namespace Sys2Proof.Machine

/-- `CFG.ADDR a` (R171). -/
def execCfgAddr (a : Byte) (s : State) : Result := inIdle s (.next (respond .ok 0 { s with addr := a }))

/-- `TX.CLEAR` (R172). -/
def execTxClear (s : State) : Result := inIdle s (.next (respond .ok 0 { s with txlen := 0 }))

/-- `TX.PUSH b` (R173): from 251 on the byte is discarded and the overflow remembered. -/
def execTxPush (b : Byte) (s : State) : Result :=
  inIdle s
    (if s.txlen.toNat < maxPayload then
      withValue (memWrite .txbuf s.txlen.toNat b s) fun s =>
        .next (respond .ok 0 { s with txlen := BitVec.ofNat 8 (s.txlen.toNat + 1) })
    else .next (respond .ok 0 { s with txlen := 252 }))

/-- `XCHG.START op` (R174): answered OK whatever follows; IllegalOperation is tested before
PayloadTooLong (R216). -/
def execXchgStart (op : Byte) (s : State) : Result :=
  inIdle s <|
    let s := clearResult (respond .ok 0 { s with crc := crcSeed, txop := op, txidx := 0 })
    if !isOperation op then .next (raiseFail .program .illegalOperation s)
    else if s.txlen.toNat > maxPayload then .next (raiseFail .program .payloadTooLong s)
    else .next { s with phase := .sending }

/-- `XCHG.ACK` (R180). -/
def execXchgAck (s : State) : Result := inDone s (.next (respond .ok 0 (acknowledge s)))

end Sys2Proof.Machine
end

