-- ==== Sys2Proof/Machine/CrcOps.lean ====
section
/-! DEFINITION. The host operations on the CRC register (40_crc.md R108 to R110). -/

namespace Sys2Proof.Machine

/-- `CRC.INIT` (R108). -/
def execCrcInit (s : State) : Result := inIdle s (.next (respond .ok 0 { s with crc := crcSeed }))

/-- `CRC.UPDATE b` (R109). -/
def execCrcUpdate (b : Byte) (s : State) : Result :=
  inIdle s (.next (respond .ok 0 { s with crc := crcByte s.crc b }))

/-- `CRC.READ` (R110). -/
def execCrcRead (s : State) : Result := inIdle s (.next (respond .ok s.crc s))

end Sys2Proof.Machine
end

