-- ==== Sys2Proof/Machine/Readout.lean ====
section
/-! DEFINITION. The host's read operations (45_exchange_fsm.md R181 to R187). None changes a state element
(20_memory.md R59). -/

namespace Sys2Proof.Machine

/-- `RD.PHASE` (R181). -/
def execRdPhase (s : State) : Result := .next (respond .ok ((phaseCode s.phase).setWidth 16) s)

/-- `RD.RESULT` (R182). -/
def execRdResult (s : State) : Result := .next (respond .ok (resultWord s) s)

/-- `RD.STATUS` (R183). -/
def execRdStatus (s : State) : Result := inDone s (.next (respond .ok (s.resStatus.setWidth 16) s))

/-- `RD.ADDR` (R184). -/
def execRdAddr (s : State) : Result := .next (respond .ok (s.addr.setWidth 16) s)

/-- `RD.RXLEN` (R185). -/
def execRdRxlen (s : State) : Result := inSuccess s (.next (respond .ok (s.rxlen.setWidth 16) s))

/-- `RD.TXLEN` (R186). -/
def execRdTxlen (s : State) : Result := .next (respond .ok (s.txlen.setWidth 16) s)

/-- `RD.RSP i` (R187); `i > rxlen - 2` is written with an addition, so that no subtraction can go below
zero (40_crc.md R113 (e)). -/
def execRdRsp (i : Byte) (s : State) : Result :=
  inSuccess s
    (if i.toNat + 2 > s.rxlen.toNat then .next (respond .range 0 s)
    else withValue (memRead .rxbuf i.toNat s) fun b => .next (respond .ok (b.setWidth 16) s))

end Sys2Proof.Machine
end

