-- ==== Sys2Proof/Machine/Exchange.lean ====
section
/-! DEFINITION. Sequences of steps of one exchange, shared by the command, response and pseudo-operation
families: staging and start, sending, receiving, validation, and the host's read-out (45_exchange_fsm.md
R192). Each is a composition of the meanings of the single operations and events. -/

namespace Sys2Proof.Machine

/-- More wire bytes than any command has (R71: at most 256). -/
def sendFuel : Nat := 257

/-- `CH.TXBYTE` while the phase is Sending, at most `k` times. -/
def sendAll : Nat → State → Result
  | 0, s => .next s
  | k + 1, s => if s.phase = .sending then andThen (execChTxbyte s) (sendAll k) else .next s

/-- The bytes of the receive stream offered one by one: each goes to the event of the phase it meets, and
from the first that is not taken on they stay in the channel (R53, R176, R177). -/
def takeAll : List Byte → State → Result
  | [], s => .next { s with rxStream := [] }
  | b :: bytes, s =>
    match s.phase with
    | .awaitingLength => andThen (execChRxbyteLength b s) (takeAll bytes)
    | .awaitingBody => andThen (execChRxbyteBody b s) (takeAll bytes)
    | _ => .next { s with rxStream := b :: bytes }

/-- What the channel holds is taken as far as the phase allows, and VALIDATE happens if that completes a
response (R179: without any input). -/
def receive (s : State) : Result := andThen (takeAll s.rxStream s) execValidate

/-- `tx.clear`, `tx.push` of each payload byte, `xchg.start op` (R192). -/
def beginExchange (op : Byte) (payload : List Byte) (s : State) : Result :=
  andThen (execTxClear s) fun s =>
  andThen (forEach execTxPush payload s) (execXchgStart op)

/-- The channel events and VALIDATE that happen meanwhile (R192), as far as the channel is ready and has
bytes (log 13, log 16). -/
def meanwhile (s : State) : Result :=
  if s.chanReady then andThen (sendAll sendFuel s) receive else .next s

/-- The data of the last answer, as the host that asked sees it. -/
def answered (s : State) : Word :=
  match s.answer with
  | some a => a.data
  | none => 0

/-- `[rd.rsp i for i in indexes]`, appended to `got` (R192). -/
def readBytes : List Nat → List Byte → State → (List Byte → State → Result) → Result
  | [], got, s, k => k got s
  | i :: is, got, s, k =>
    andThen (execRdRsp (BitVec.ofNat 8 i) s) fun s => readBytes is (got ++ [lo8 (answered s)]) s k

/-- What a pseudo-operation makes of the status and payload of an exchange that ended in Success (R192 to
R197). -/
def resultOf (task : Task) (params : Params) (status : Byte) (payload : List Byte) : HostResult :=
  match task with
  | .xchg => .exchange status payload
  | .readerInformation =>
    match parseReaderInformation payload with
    | .ok r => .info r
    | .error e => .error e.cls e.cause none
  | .inventory =>
    match parseInventory (statusDecode params status) payload with
    | .ok tags => .tags tags
    | .error e => .error e.cls e.cause none
  | .readData => .data (parseReadData payload)
  | .writeData => .unit
  | .kill => .unit

/-- The read-out of an exchange that ended in Success: `rd.status`, `rd.rxlen`, `rd.rsp i` for `i` from 4
to `n - 2`, `xchg.ack` (R192). -/
def readOutSuccess (task : Task) (s : State) : Result :=
  andThen (execRdStatus s) fun s =>
    let status := lo8 (answered s)
    andThen (execRdRxlen s) fun s =>
      let n := (answered s).toNat
      readBytes (List.range' 4 (n - 5)) [] s fun payload s =>
        andThen (execXchgAck s) fun s =>
          .next { s with result := some (resultOf task s.params status payload) }

/-- The read-out of an exchange that ended in Failed: `rd.result`, `rd.status`, `xchg.ack` (R192). -/
def readOutFailed (s : State) : Result :=
  andThen (execRdResult s) fun s =>
    let cls := s.resClass
    let cause := s.resCause
    andThen (execRdStatus s) fun s =>
      let status := lo8 (answered s)
      andThen (execXchgAck s) fun s =>
        .next { s with result := some (.error cls cause (some status)) }

/-- The end of a pseudo-operation whose exchange has ended; while it has not, the host goes on waiting
(R192: wait until `rd.phase` answers 5 or 6; log 13). -/
def settle (task : Task) (s : State) : Result :=
  match s.phase with
  | .success => readOutSuccess task { s with task := none }
  | .failed => readOutFailed { s with task := none }
  | _ => .next { s with task := some task }

/-- One whole exchange as the host sees it (R192). -/
def exchange (task : Task) (op : Byte) (payload : List Byte) (s : State) : Result :=
  andThen (beginExchange op payload s) fun s =>
  andThen (meanwhile s) (settle task)

/-- What a caller gets from a function that ends with an error before any block operation is issued: a builder
that rejects its record (R195 to R197), or `check_frame` on bytes that are no frame (R150; log 19). -/
def rejectRecord (e : Failure) (s : State) : State :=
  { s with result := some (.error e.cls e.cause none) }

end Sys2Proof.Machine
end

