-- ==== Sys2Proof/Machine/Commands.lean ====
section
/-! DEFINITION. The CMD rows: a logical command is serialized and sent (41_command_codec.md R120 to R123,
42_payload_builders.md R131 to R135, 30_encoding.md R76). -/

namespace Sys2Proof.Machine

/-- The command `{address, op, payload}` sent by the block's own operations: `cfg.addr`, staging,
`xchg.start`, and `CH.TXBYTE` for as long as the channel takes bytes (R121, R174, R175; log 8). Outside
Idle the first operation is refused, and the command with it (R188; log 9). -/
def sendCommand (address op : Byte) (payload : List Byte) (s : State) : Result :=
  inIdle s <|
    andThen (execCfgAddr address s) fun s =>
    andThen (beginExchange op payload s) fun s =>
    if s.chanReady then sendAll sendFuel s else .next s

/-- A command whose payload a builder makes; a record it rejects is reported to the caller and nothing is
sent (R130). -/
def sendBuilt (address op : Byte) (built : Except Failure (List Byte)) (s : State) : Result :=
  match built with
  | .ok payload => sendCommand address op payload s
  | .error e => .next (rejectRecord e s)

/-- `INVENTORY` (R76, R131). -/
def execCmdInventory (address : Byte) (s : State) : Result :=
  sendCommand address opInventory buildInventory s

/-- `READ_DATA` (R76, R133). -/
def execCmdReadData (address : Byte) (cmd : ReadCommand) (s : State) : Result :=
  sendBuilt address opReadData (buildRead s.params cmd) s

/-- `WRITE_DATA` (R76, R134). -/
def execCmdWriteData (address : Byte) (cmd : WriteCommand) (s : State) : Result :=
  sendBuilt address opWriteData (buildWrite s.params cmd) s

/-- `KILL_TAG` (R76, R135). -/
def execCmdKillTag (address : Byte) (cmd : KillCommand) (s : State) : Result :=
  sendBuilt address opKillTag (buildKill cmd) s

/-- `GET_READER_INFORMATION` (R76, R132). -/
def execCmdGetReaderInformation (address : Byte) (s : State) : Result :=
  sendCommand address opGetReaderInformation buildGetReaderInformation s

end Sys2Proof.Machine
end

