-- ==== Sys2Proof/Machine/PseudoOps.lean ====
section
/-! DEFINITION. The pseudo-operations, the document's public operations (30_encoding.md R90,
45_exchange_fsm.md R192 to R198). -/

namespace Sys2Proof.Machine

/-- `crc m`: `crc.init`, `crc.update` of each byte, `crc.read` (R198). -/
def execPseudoCrc (message : List Byte) (s : State) : Result :=
  andThen (execCrcInit s) fun s => andThen (forEach execCrcUpdate message s) execCrcRead

/-- `xchg op, payload` (R192). -/
def execPseudoXchg (op : Byte) (payload : List Byte) (s : State) : Result :=
  exchange .xchg op payload s

/-- `reader_information` (R193). -/
def execReaderInformation (s : State) : Result :=
  exchange .readerInformation opGetReaderInformation buildGetReaderInformation s

/-- `inventory` (R194). -/
def execInventory (s : State) : Result := exchange .inventory opInventory buildInventory s

/-- An exchange with the payload a builder makes; on a builder error no block operation is issued (R195 to
R197). -/
def exchangeBuilt (task : Task) (op : Byte) (built : Except Failure (List Byte)) (s : State) : Result :=
  match built with
  | .ok payload => exchange task op payload s
  | .error e => .next (rejectRecord e s)

/-- `read_data cmd` (R195). -/
def execReadData (cmd : ReadCommand) (s : State) : Result :=
  exchangeBuilt .readData opReadData (buildRead s.params cmd) s

/-- `write_data cmd` (R196). -/
def execWriteData (cmd : WriteCommand) (s : State) : Result :=
  exchangeBuilt .writeData opWriteData (buildWrite s.params cmd) s

/-- `kill cmd` (R197). -/
def execKill (cmd : KillCommand) (s : State) : Result :=
  exchangeBuilt .kill opKillTag (buildKill cmd) s

end Sys2Proof.Machine
end

