-- ==== Sys2Proof/WellFormed.lean ====
section
/-! DEFINITION. Which instructions are well formed: the forms the encodings of 30_encoding.md admit and
the parameter records the builders of 42_payload_builders.md accept. -/

namespace Sys2Proof

/-- An EPC (or write data) of even length (R130 (a), R134). -/
def wfWords (bytes : List Byte) : Bool := bytes.length % 2 == 0

/-- An access password of a record: absent or exactly 4 bytes (R130 (b)). -/
def wfPassword : Option (List Byte) → Bool
  | none => true
  | some pw => pw.length == 4

/-- A password in the one spelling a frame is read back to: absent stands for the four zero bytes
(R84, R130 (b); log 12). -/
def wfSentPassword : Option (List Byte) → Bool
  | none => true
  | some pw => pw.length == 4 && pw != [0, 0, 0, 0]

/-- Both mask fields or neither (R84, R130 (c)). -/
def wfMask : Option Byte → Option Byte → Bool
  | none, none => true
  | some _, some _ => true
  | _, _ => false

/-- The mask bytes of a payload: two or none. -/
def maskLen : Option Byte → Nat
  | none => 0
  | some _ => 2

def ReadCommand.wf (c : ReadCommand) : Bool :=
  wfWords c.epc && wfPassword c.password && wfMask c.maskAddress c.maskLength
    && decide (c.epc.length + 8 + maskLen c.maskAddress ≤ maxPayload)

def WriteCommand.wf (c : WriteCommand) : Bool :=
  wfWords c.epc && wfWords c.data && wfPassword c.password && wfMask c.maskAddress c.maskLength
    && decide (c.epc.length + c.data.length + 8 + maskLen c.maskAddress ≤ maxPayload)

def KillCommand.wf (c : KillCommand) : Bool :=
  wfWords c.epc && wfPassword c.password && wfMask c.maskAddress c.maskLength
    && decide (c.epc.length + 5 + maskLen c.maskAddress ≤ maxPayload)

/-- A response frame whose length byte counts the bytes that follow it and leaves room for a trailer
(R72, R73). -/
def RspFrame.wf (f : RspFrame) : Bool :=
  f.length.toNat == f.rest.length + 3 && decide (2 ≤ f.rest.length)

/-- Well-formedness of an instruction under the arguments `p` of the model. -/
def Instr.wf (p : Params) : Instr → Bool
  | .cmdInventory _ => true
  | .cmdReadData _ c => c.wf && wfSentPassword c.password
  | .cmdWriteData _ c => c.wf && wfSentPassword c.password
  | .cmdKillTag _ c => c.wf && wfSentPassword c.password
  | .cmdGetReaderInformation _ => true
  | .statusOk f => f.wf
  | .statusReturnBeforeInventoryFinished f => f.wf
  | .statusScanTimeOverflow f => f.wf
  | .statusMoreData f => f.wf
  | .statusAccessPasswordError f => f.wf
  | .statusKillTagError f => f.wf
  | .statusKillPasswordZero f => f.wf
  | .statusCommandNotSupported f => f.wf
  | .statusPoorCommunication f => f.wf
  | .statusNoTags f => f.wf
  | .statusWrongLength f => f.wf
  | .statusIllegalCommand f => f.wf
  | .statusParameterError f => f.wf
  | .statusOther10 f => f.wf && p.statusOther.contains 0x10
  | .statusOther11 f => f.wf && p.statusOther.contains 0x11
  | .statusOther12 f => f.wf && p.statusOther.contains 0x12
  | .statusOtherF9 f => f.wf && p.statusOther.contains 0xF9
  | .statusUnknown b f => f.wf && (statusDecode p b).isNone
  | .crcInit => true
  | .crcUpdate _ => true
  | .crcRead => true
  | .cfgAddr _ => true
  | .txClear => true
  | .txPush _ => true
  | .xchgStart _ => true
  | .xchgAck => true
  | .rdPhase => true
  | .rdResult => true
  | .rdStatus => true
  | .rdAddr => true
  | .rdRxlen => true
  | .rdTxlen => true
  | .rdRsp _ => true
  | .chTxbyte => true
  | .chRxbyteLength _ => true
  | .chRxbyteBody _ => true
  | .chIoerr => true
  | .validate => true
  | .reset => true
  | .pseudoCrc _ => true
  | .pseudoXchg op payload => isOperation op && decide (payload.length ≤ maxPayload)
  | .readerInformation => true
  | .inventory => true
  | .readData c => c.wf
  | .writeData c => c.wf
  | .kill c => c.wf

end Sys2Proof
end

