-- ==== Sys2Proof/Decode.lean ====
section
/-! DEFINITION. From bits to instructions and back (30_encoding.md): host words (R74, R79), command
frames (R71, R76, R80), response frames (R72, R77); the header words by which the opcode table names
the frame rows (R70). -/

namespace Sys2Proof

/-- Why bytes are no instruction; each case names the rule that gives them no meaning. -/
inductive DecodeError where
  /-- EVENT and PSEUDO rows have no bit pattern (R70). -/
  | noBitPattern
  /-- Fewer bytes than the format's header has. -/
  | truncated
  /-- A host word whose selector R79 does not list (R87). -/
  | unassignedOpsel (opsel : Byte)
  /-- The bytes are no frame: `check_frame` fails so (R150). -/
  | notAFrame (e : Failure)
  /-- A command frame whose operation code is not one of the five (R85). -/
  | notAnOperation (op : Byte)
  /-- A command frame whose payload is not one the operation's builder makes (R80). -/
  | notAPayload (op : Byte)
  /-- A response whose status is a member of `STATUS_OTHER` that the opcode table has no row for. -/
  | otherStatusWithoutRow (status : Byte)
  deriving DecidableEq, Repr

/-! ## Host words -/

/-- The operation a host word selects: `opsel = W[15:8]`, operand `W[7:0]`, ignored by the operations
that take none (R74, R79; an unassigned selector: R87). -/
def decodeHost (w : Word) : Except DecodeError Instr :=
  match (hi8 w).toNat with
  | 0x01 => .ok .crcInit
  | 0x02 => .ok (.crcUpdate (lo8 w))
  | 0x03 => .ok .crcRead
  | 0x10 => .ok (.cfgAddr (lo8 w))
  | 0x11 => .ok .txClear
  | 0x12 => .ok (.txPush (lo8 w))
  | 0x13 => .ok (.xchgStart (lo8 w))
  | 0x14 => .ok .xchgAck
  | 0x20 => .ok .rdPhase
  | 0x21 => .ok .rdResult
  | 0x22 => .ok .rdStatus
  | 0x23 => .ok .rdAddr
  | 0x24 => .ok .rdRxlen
  | 0x25 => .ok .rdTxlen
  | 0x26 => .ok (.rdRsp (lo8 w))
  | _ => .error (.unassignedOpsel (hi8 w))

/-! ## Command frames -/

/-- The mask fields from what follows the password; their presence shows in the length alone (R84). -/
def parseMask : List Byte → Option (Option Byte × Option Byte)
  | [] => some (none, none)
  | [address, length] => some (some address, some length)
  | _ => none

/-- The password field read back: four zero bytes stand for an absent password (R130 (b); log 12). -/
def parsePassword (pw : List Byte) : Option (List Byte) := if pw = [0, 0, 0, 0] then none else some pw

/-- A ReadCommand payload read back (R80, R133). -/
def parseReadCommand (p : Params) : List Byte → Option ReadCommand
  | [] => none
  | words :: bytes =>
    match bytes.drop (2 * words.toNat) with
    | location :: start :: count :: p0 :: p1 :: p2 :: p3 :: tail =>
      match p.memlocDecode location, parseMask tail with
      | some l, some mask =>
        some ⟨bytes.take (2 * words.toNat), l, start, count, parsePassword [p0, p1, p2, p3],
          mask.1, mask.2⟩
      | _, _ => none
    | _ => none

/-- A WriteCommand payload read back (R80, R134). -/
def parseWriteCommand (p : Params) : List Byte → Option WriteCommand
  | dataWords :: words :: bytes =>
    match bytes.drop (2 * words.toNat) with
    | location :: start :: more =>
      match more.drop (2 * dataWords.toNat) with
      | p0 :: p1 :: p2 :: p3 :: tail =>
        match p.memlocDecode location, parseMask tail with
        | some l, some mask =>
          some ⟨bytes.take (2 * words.toNat), l, start, more.take (2 * dataWords.toNat),
            parsePassword [p0, p1, p2, p3], mask.1, mask.2⟩
        | _, _ => none
      | _ => none
    | _ => none
  | _ => none

/-- A KillCommand payload read back (R80, R135). -/
def parseKillCommand : List Byte → Option KillCommand
  | [] => none
  | words :: bytes =>
    match bytes.drop (2 * words.toNat) with
    | p0 :: p1 :: p2 :: p3 :: tail =>
      match parseMask tail with
      | some mask =>
        some ⟨bytes.take (2 * words.toNat), parsePassword [p0, p1, p2, p3], mask.1, mask.2⟩
      | none => none
    | _ => none

/-- The command with operation code `op` and payload `payload` (R76, R80). -/
def commandOf (p : Params) (address op : Byte) (payload : List Byte) : Except DecodeError Instr :=
  if op = opInventory then
    if payload = [] then .ok (.cmdInventory address) else .error (.notAPayload op)
  else if op = opReadData then
    match parseReadCommand p payload with
    | some c => .ok (.cmdReadData address c)
    | none => .error (.notAPayload op)
  else if op = opWriteData then
    match parseWriteCommand p payload with
    | some c => .ok (.cmdWriteData address c)
    | none => .error (.notAPayload op)
  else if op = opKillTag then
    match parseKillCommand payload with
    | some c => .ok (.cmdKillTag address c)
    | none => .error (.notAPayload op)
  else if op = opGetReaderInformation then
    if payload = [] then .ok (.cmdGetReaderInformation address) else .error (.notAPayload op)
  else .error (.notAnOperation op)

/-- The shortest payload of each operation, all its bytes zero: what a header word alone stands for
(log 11). -/
def headerPayload (op : Byte) : List Byte :=
  if op = opReadData then List.replicate 8 0
  else if op = opWriteData then List.replicate 8 0
  else if op = opKillTag then List.replicate 5 0
  else []

/-- The frame that bytes offered as a command stand for (R150). Three or four bytes are a header word without
its frame (R70: the form in which the opcode table gives the row), with operand bytes of zero (log 11); anything
else must be a whole frame. -/
def commandFrame : List Byte → Except Failure Frame
  | [_, address, op] => .ok ⟨address, op, headerPayload op⟩
  | [_, address, op, _] => .ok ⟨address, op, headerPayload op⟩
  | bytes => checkFrame bytes

/-- The command that bytes stand for. -/
def decodeCommand (p : Params) (bytes : List Byte) : Except DecodeError Instr :=
  match commandFrame bytes with
  | .ok f => commandOf p f.address f.code f.body
  | .error e => .error (.notAFrame e)

/-! ## Response frames -/

/-- The wire bytes of a response frame with status byte `status` (R72). -/
def rspBytes (status : Byte) (f : RspFrame) : List Byte :=
  f.length :: f.address :: f.echo :: status :: f.rest

/-- The row of a named status (R77). -/
def rspRow : StatusName → RspFrame → Instr
  | .ok => .statusOk
  | .returnBeforeInventoryFinished => .statusReturnBeforeInventoryFinished
  | .scanTimeOverflow => .statusScanTimeOverflow
  | .moreData => .statusMoreData
  | .accessPasswordError => .statusAccessPasswordError
  | .killTagError => .statusKillTagError
  | .killPasswordZero => .statusKillPasswordZero
  | .commandNotSupported => .statusCommandNotSupported
  | .poorCommunication => .statusPoorCommunication
  | .noTags => .statusNoTags
  | .wrongLength => .statusWrongLength
  | .illegalCommand => .statusIllegalCommand
  | .parameterError => .statusParameterError

/-- The row of a status byte (R77, R86, R161). -/
def statusRow (p : Params) (b : Byte) (f : RspFrame) : Except DecodeError Instr :=
  match statusDecode p b with
  | none => .ok (.statusUnknown b f)
  | some (.named n) => .ok (rspRow n f)
  | some (.other _) =>
    if b = 0x10 then .ok (.statusOther10 f)
    else if b = 0x11 then .ok (.statusOther11 f)
    else if b = 0x12 then .ok (.statusOther12 f)
    else if b = 0xF9 then .ok (.statusOtherF9 f)
    else .error (.otherStatusWithoutRow b)

/-- A response frame, of any length from its header on; nothing of it is judged here (log 10). -/
def decodeRsp (p : Params) : List Byte → Except DecodeError Instr
  | length :: address :: echo :: status :: rest => statusRow p status ⟨length, address, echo, rest⟩
  | _ => .error .truncated

/-! ## All formats -/

/-- The decoder: the format says where the bytes stand (a host word, low byte first; a command frame;
a response frame; R70). -/
def decode (p : Params) : Format → List Byte → Except DecodeError Instr
  | .host, [lo, hi] => decodeHost (le16 lo hi)
  | .host, _ => .error .truncated
  | .cmd, bytes => decodeCommand p bytes
  | .rsp, bytes => decodeRsp p bytes
  | .event, _ => .error .noBitPattern
  | .pseudo, _ => .error .noBitPattern

/-! ## Encoding -/

/-- A host word from its selector and operand (R74). -/
def hostWord (opsel operand : Byte) : Word := le16 operand opsel

/-- The host word of a HOST row, ignored operand bits zero (R74, R79). -/
def encodeHost : Instr → Option Word
  | .crcInit => some (hostWord 0x01 0)
  | .crcUpdate b => some (hostWord 0x02 b)
  | .crcRead => some (hostWord 0x03 0)
  | .cfgAddr a => some (hostWord 0x10 a)
  | .txClear => some (hostWord 0x11 0)
  | .txPush b => some (hostWord 0x12 b)
  | .xchgStart op => some (hostWord 0x13 op)
  | .xchgAck => some (hostWord 0x14 0)
  | .rdPhase => some (hostWord 0x20 0)
  | .rdResult => some (hostWord 0x21 0)
  | .rdStatus => some (hostWord 0x22 0)
  | .rdAddr => some (hostWord 0x23 0)
  | .rdRxlen => some (hostWord 0x24 0)
  | .rdTxlen => some (hostWord 0x25 0)
  | .rdRsp i => some (hostWord 0x26 i)
  | _ => none

/-- The frame of a command whose payload a builder makes; the builder's error, or that of R121, where there is
none. -/
def encodeBuilt (address : Byte) (operation : Operation) (built : Except Failure (List Byte)) :
    Except Failure (List Byte) :=
  match built with
  | .ok payload => encodeCommand address operation payload
  | .error e => .error e

/-- The wire bytes of an instruction of format CMD, RSP or HOST; nothing for the formats that have no
bit pattern. -/
def encode (p : Params) : Instr → Option (List Byte)
  | .cmdInventory a => (encodeBuilt a .inventory (.ok buildInventory)).toOption
  | .cmdReadData a c => (encodeBuilt a .readData (buildRead p c)).toOption
  | .cmdWriteData a c => (encodeBuilt a .writeData (buildWrite p c)).toOption
  | .cmdKillTag a c => (encodeBuilt a .killTag (buildKill c)).toOption
  | .cmdGetReaderInformation a => (encodeBuilt a .getReaderInformation (.ok buildGetReaderInformation)).toOption
  | .statusOk f => some (rspBytes (p.statusCode .ok) f)
  | .statusReturnBeforeInventoryFinished f =>
    some (rspBytes (p.statusCode .returnBeforeInventoryFinished) f)
  | .statusScanTimeOverflow f => some (rspBytes (p.statusCode .scanTimeOverflow) f)
  | .statusMoreData f => some (rspBytes (p.statusCode .moreData) f)
  | .statusAccessPasswordError f => some (rspBytes (p.statusCode .accessPasswordError) f)
  | .statusKillTagError f => some (rspBytes (p.statusCode .killTagError) f)
  | .statusKillPasswordZero f => some (rspBytes (p.statusCode .killPasswordZero) f)
  | .statusCommandNotSupported f => some (rspBytes (p.statusCode .commandNotSupported) f)
  | .statusPoorCommunication f => some (rspBytes (p.statusCode .poorCommunication) f)
  | .statusNoTags f => some (rspBytes (p.statusCode .noTags) f)
  | .statusWrongLength f => some (rspBytes (p.statusCode .wrongLength) f)
  | .statusIllegalCommand f => some (rspBytes (p.statusCode .illegalCommand) f)
  | .statusParameterError f => some (rspBytes (p.statusCode .parameterError) f)
  | .statusOther10 f => some (rspBytes 0x10 f)
  | .statusOther11 f => some (rspBytes 0x11 f)
  | .statusOther12 f => some (rspBytes 0x12 f)
  | .statusOtherF9 f => some (rspBytes 0xF9 f)
  | .statusUnknown b f => some (rspBytes b f)
  | i =>
    match encodeHost i with
    | some w => some [lo8 w, hi8 w]
    | none => none

/-! ## The opcode table's words -/

/-- The low `k` bytes of `w`, least significant first. -/
def bytesOfNat : Nat → Nat → List Byte
  | 0, _ => []
  | k + 1, w => BitVec.ofNat 8 w :: bytesOfNat k (w / 256)

/-- Whether a header word is one of the CMD rows' patterns: an operation code in byte 2 and nothing in
byte 3 (R70: byte 3 is 0 where the frame has none before its trailer). -/
def isCommandHeader (bytes : List Byte) : Bool :=
  isOperation (bytes.getD 2 0) && bytes.getD 3 0 == 0

/-- Which format a table word of `nbits` bits is of, and its bytes as laid out on the port or the wire:
16 bits a host word, 24 bits a header word cut after the operation code (CMD rows), 32 bits a header
word (log 11). -/
def tableWord (nbits w : Nat) : Option (Format × List Byte) :=
  match nbits with
  | 16 => some (.host, bytesOfNat 2 w)
  | 24 => some (.cmd, bytesOfNat 3 w)
  | 32 =>
    if isCommandHeader (bytesOfNat 4 w) then some (.cmd, bytesOfNat 4 w)
    else some (.rsp, bytesOfNat 4 w)
  | _ => none

/-- What the decoder reads from a word of spec/opcode_table.json, under the default arguments the
table's RSP rows are written with (R77). -/
def decodeTableWord (nbits w : Nat) : Option Instr :=
  match tableWord nbits w with
  | some (fmt, bytes) =>
    match decode Params.defaults fmt bytes with
    | .ok i => some i
    | .error _ => none
  | none => none

end Sys2Proof
end

