-- ==== Sys2Proof/Machine/Responses.lean ====
section
/-! DEFINITION. The RSP rows: the channel delivers a response frame with the row's status, the block takes
it byte by byte and VALIDATE judges it (30_encoding.md R72, R77, R86; 44_status_classifier.md R160 to
R164; log 10). The frame is delivered as it stands, its length byte and trailer included. -/

namespace Sys2Proof.Machine

/-- The channel delivers `bytes` behind those it already holds (20_memory.md R53, 70_reset_and_hazards.md
R248); the block takes what its phase lets it take and validates a response that is complete. -/
def deliver (bytes : List Byte) (s : State) : Result :=
  receive { s with rxStream := s.rxStream ++ bytes }

/-- `STATUS.OK` (R77, R162). -/
def execStatusOk (f : RspFrame) (s : State) : Result :=
  deliver (rspBytes (s.params.statusCode .ok) f) s

/-- `STATUS.ReturnBeforeInventoryFinished` (R77, R162). -/
def execStatusReturnBeforeInventoryFinished (f : RspFrame) (s : State) : Result :=
  deliver (rspBytes (s.params.statusCode .returnBeforeInventoryFinished) f) s

/-- `STATUS.ScanTimeOverflow` (R77, R162). -/
def execStatusScanTimeOverflow (f : RspFrame) (s : State) : Result :=
  deliver (rspBytes (s.params.statusCode .scanTimeOverflow) f) s

/-- `STATUS.MoreData` (R77, R162). -/
def execStatusMoreData (f : RspFrame) (s : State) : Result :=
  deliver (rspBytes (s.params.statusCode .moreData) f) s

/-- `STATUS.AccessPasswordError` (R77, R162). -/
def execStatusAccessPasswordError (f : RspFrame) (s : State) : Result :=
  deliver (rspBytes (s.params.statusCode .accessPasswordError) f) s

/-- `STATUS.KillTagError` (R77, R162). -/
def execStatusKillTagError (f : RspFrame) (s : State) : Result :=
  deliver (rspBytes (s.params.statusCode .killTagError) f) s

/-- `STATUS.KillPasswordZero` (R77, R162). -/
def execStatusKillPasswordZero (f : RspFrame) (s : State) : Result :=
  deliver (rspBytes (s.params.statusCode .killPasswordZero) f) s

/-- `STATUS.CommandNotSupported` (R77, R162). -/
def execStatusCommandNotSupported (f : RspFrame) (s : State) : Result :=
  deliver (rspBytes (s.params.statusCode .commandNotSupported) f) s

/-- `STATUS.PoorCommunication` (R77, R162). -/
def execStatusPoorCommunication (f : RspFrame) (s : State) : Result :=
  deliver (rspBytes (s.params.statusCode .poorCommunication) f) s

/-- `STATUS.NoTags` (R77, R162). -/
def execStatusNoTags (f : RspFrame) (s : State) : Result :=
  deliver (rspBytes (s.params.statusCode .noTags) f) s

/-- `STATUS.WrongLength` (R77, R162). -/
def execStatusWrongLength (f : RspFrame) (s : State) : Result :=
  deliver (rspBytes (s.params.statusCode .wrongLength) f) s

/-- `STATUS.IllegalCommand` (R77, R162). -/
def execStatusIllegalCommand (f : RspFrame) (s : State) : Result :=
  deliver (rspBytes (s.params.statusCode .illegalCommand) f) s

/-- `STATUS.ParameterError` (R77, R162). -/
def execStatusParameterError (f : RspFrame) (s : State) : Result :=
  deliver (rspBytes (s.params.statusCode .parameterError) f) s

/-- `STATUS.Other_10`: the default member 0x10 of `STATUS_OTHER` (R77, R162). -/
def execStatusOther10 (f : RspFrame) (s : State) : Result := deliver (rspBytes 0x10 f) s

/-- `STATUS.Other_11`: the default member 0x11 of `STATUS_OTHER` (R77, R162). -/
def execStatusOther11 (f : RspFrame) (s : State) : Result := deliver (rspBytes 0x11 f) s

/-- `STATUS.Other_12`: the default member 0x12 of `STATUS_OTHER` (R77, R162). -/
def execStatusOther12 (f : RspFrame) (s : State) : Result := deliver (rspBytes 0x12 f) s

/-- `STATUS.Other_F9`: the default member 0xF9 of `STATUS_OTHER` (R77, R162). -/
def execStatusOtherF9 (f : RspFrame) (s : State) : Result := deliver (rspBytes 0xF9 f) s

/-- `STATUS.unknown`: a status byte that is not enumerated (R86). -/
def execStatusUnknown (status : Byte) (f : RspFrame) (s : State) : Result :=
  deliver (rspBytes status f) s

end Sys2Proof.Machine
end

