-- ==== Sys2Proof/Machine/Dispatch.lean ====
section
/-! DEFINITION. One arm per instruction: each a direct call of its meaning. -/

namespace Sys2Proof.Machine

def exec (i : Instr) (s : State) : Host.Outcome State Fault Refusal :=
  match i with
  | .cmdInventory a => Sys2Proof.Machine.execCmdInventory a s
  | .cmdReadData a c => Sys2Proof.Machine.execCmdReadData a c s
  | .cmdWriteData a c => Sys2Proof.Machine.execCmdWriteData a c s
  | .cmdKillTag a c => Sys2Proof.Machine.execCmdKillTag a c s
  | .cmdGetReaderInformation a => Sys2Proof.Machine.execCmdGetReaderInformation a s
  | .statusOk f => Sys2Proof.Machine.execStatusOk f s
  | .statusReturnBeforeInventoryFinished f => Sys2Proof.Machine.execStatusReturnBeforeInventoryFinished f s
  | .statusScanTimeOverflow f => Sys2Proof.Machine.execStatusScanTimeOverflow f s
  | .statusMoreData f => Sys2Proof.Machine.execStatusMoreData f s
  | .statusAccessPasswordError f => Sys2Proof.Machine.execStatusAccessPasswordError f s
  | .statusKillTagError f => Sys2Proof.Machine.execStatusKillTagError f s
  | .statusKillPasswordZero f => Sys2Proof.Machine.execStatusKillPasswordZero f s
  | .statusCommandNotSupported f => Sys2Proof.Machine.execStatusCommandNotSupported f s
  | .statusPoorCommunication f => Sys2Proof.Machine.execStatusPoorCommunication f s
  | .statusNoTags f => Sys2Proof.Machine.execStatusNoTags f s
  | .statusWrongLength f => Sys2Proof.Machine.execStatusWrongLength f s
  | .statusIllegalCommand f => Sys2Proof.Machine.execStatusIllegalCommand f s
  | .statusParameterError f => Sys2Proof.Machine.execStatusParameterError f s
  | .statusOther10 f => Sys2Proof.Machine.execStatusOther10 f s
  | .statusOther11 f => Sys2Proof.Machine.execStatusOther11 f s
  | .statusOther12 f => Sys2Proof.Machine.execStatusOther12 f s
  | .statusOtherF9 f => Sys2Proof.Machine.execStatusOtherF9 f s
  | .statusUnknown b f => Sys2Proof.Machine.execStatusUnknown b f s
  | .crcInit => Sys2Proof.Machine.execCrcInit s
  | .crcUpdate b => Sys2Proof.Machine.execCrcUpdate b s
  | .crcRead => Sys2Proof.Machine.execCrcRead s
  | .cfgAddr a => Sys2Proof.Machine.execCfgAddr a s
  | .txClear => Sys2Proof.Machine.execTxClear s
  | .txPush b => Sys2Proof.Machine.execTxPush b s
  | .xchgStart op => Sys2Proof.Machine.execXchgStart op s
  | .xchgAck => Sys2Proof.Machine.execXchgAck s
  | .rdPhase => Sys2Proof.Machine.execRdPhase s
  | .rdResult => Sys2Proof.Machine.execRdResult s
  | .rdStatus => Sys2Proof.Machine.execRdStatus s
  | .rdAddr => Sys2Proof.Machine.execRdAddr s
  | .rdRxlen => Sys2Proof.Machine.execRdRxlen s
  | .rdTxlen => Sys2Proof.Machine.execRdTxlen s
  | .rdRsp k => Sys2Proof.Machine.execRdRsp k s
  | .chTxbyte => Sys2Proof.Machine.execChTxbyte s
  | .chRxbyteLength b => Sys2Proof.Machine.execChRxbyteLength b s
  | .chRxbyteBody b => Sys2Proof.Machine.execChRxbyteBody b s
  | .chIoerr => Sys2Proof.Machine.execChIoerr s
  | .validate => Sys2Proof.Machine.execValidate s
  | .reset => Sys2Proof.Machine.execReset s
  | .pseudoCrc m => Sys2Proof.Machine.execPseudoCrc m s
  | .pseudoXchg op payload => Sys2Proof.Machine.execPseudoXchg op payload s
  | .readerInformation => Sys2Proof.Machine.execReaderInformation s
  | .inventory => Sys2Proof.Machine.execInventory s
  | .readData c => Sys2Proof.Machine.execReadData c s
  | .writeData c => Sys2Proof.Machine.execWriteData c s
  | .kill c => Sys2Proof.Machine.execKill c s

end Sys2Proof.Machine
end

