-- ==== Sys2Proof/Machine/Fetch.lean ====
section
/-! DEFINITION. What the next step of a run is: the events offered at the block's ports at one moment and
the precedence among them (60_exceptions.md R217; log 6), and how a word of the opcode table is placed
there (log 7, log 11). -/

namespace Sys2Proof.Machine

/-- The instruction a pseudo-operation request stands for (30_encoding.md R90). -/
def pseudoInstr : Pseudo → Instr
  | .crc m => .pseudoCrc m
  | .xchg op payload => .pseudoXchg op payload
  | .readerInformation => .readerInformation
  | .inventory => .inventory
  | .readData c => .readData c
  | .writeData c => .writeData c
  | .kill c => .kill c

/-- Nothing is offered from outside; the channel is as ready as it was and the internal event may happen. -/
def quietMoment (s : State) : Moment :=
  ⟨false, false, s.chanReady, true, [], none, none⟩

/-- The present moment: the first of the run, or a quiet one when the run has no more. -/
def presentMoment (s : State) : Moment := s.moments.headD (quietMoment s)

/-- The state at the present moment, before anything happens in it: the moment leaves the list, the
channel's readiness is the moment's, and the bytes that arrive join those the channel holds (R53). -/
def enterMoment (s : State) : State :=
  { s with
    moments := s.moments.tail
    chanReady := (presentMoment s).chan
    rxStream := s.rxStream ++ (presentMoment s).bytes }

/-- What is still offered of a moment after one event of it has been taken: a host operation that loses
waits, and so does a frame the channel could not deliver; `rst` and `io_err` are not held (R215, R217). -/
def leftover (m : Moment) : List Moment :=
  if m.frame = none ∧ m.host = none then []
  else [{ m with rst := false, ioErr := false, bytes := [] }]

/-- The moments of `s`, with what is left of the present one in front. -/
def keepOffer (m : Moment) (s : State) : State := { s with moments := leftover m ++ s.moments }

/-- What a step does. -/
inductive Action where
  /-- run an instruction -/
  | run (i : Instr) (s : State)
  /-- a host word with an unassigned selector (R87) -/
  | illegal (s : State)
  /-- a command frame that no row of the opcode table stands for is sent as it is (R124; log 19) -/
  | send (f : Frame) (s : State)
  /-- bytes offered as a command frame that are no frame (R150; log 19) -/
  | reject (e : Failure) (s : State)
  /-- a waiting pseudo-operation goes on (R192) -/
  | goOn (task : Task) (s : State)
  /-- nothing happens but the passing of the moment (R251) -/
  | wait (s : State)
  deriving DecidableEq, Repr

/-- A host offer (R74, R87, R90). A command frame that is no row's, because its payload is not one its builder
makes or its code is outside the five, is framed and sent, or fails at `XCHG.START`, like any other (R124, R85);
bytes that are no frame have the error of `check_frame` (R150). -/
def hostAction (offer : HostOffer) (s : State) : Action :=
  match offer with
  | .word w =>
    match decodeHost w with
    | .ok i => .run i s
    | .error _ => .illegal s
  | .command bytes =>
    match decode s.params .cmd bytes with
    | .ok i => .run i s
    | .error _ =>
      match commandFrame bytes with
      | .ok f => .send f s
      | .error e => .reject e s
  | .pseudo p => .run (pseudoInstr p) s

/-- The host's turn: what it offers, or else a pseudo-operation that waits and whose exchange has ended. -/
def hostTurn (m : Moment) (s : State) : Action :=
  match m.host with
  | some offer => hostAction offer s
  | none =>
    match s.task with
    | some task => if done s then .goOn task s else .wait s
    | none => .wait s

/-- VALIDATE goes before a host operation (R217), unless the run places it later. -/
def internalTurn (m : Moment) (s : State) : Action :=
  if m.internal ∧ s.phase = .validating then .run .validate (keepOffer m s) else hostTurn m s

/-- The channel's byte goes before VALIDATE (R217): a byte taken in Sending, a byte delivered in
AwaitingLength or AwaitingBody; they are never both enabled. -/
def channelTurn (m : Moment) (s : State) : Action :=
  match m.chan, s.phase, s.rxStream with
  | true, .sending, _ => .run .chTxbyte (keepOffer m s)
  | true, .awaitingLength, b :: bytes =>
    .run (.chRxbyteLength b) (keepOffer m { s with rxStream := bytes })
  | true, .awaitingBody, b :: bytes =>
    .run (.chRxbyteBody b) (keepOffer m { s with rxStream := bytes })
  | _, _, _ => internalTurn m s

/-- A response frame delivered whole; one whose status has no row of its own simply arrives as bytes. -/
def frameTurn (m : Moment) (s : State) : Action :=
  match m.frame with
  | some bytes =>
    match decode s.params .rsp bytes with
    | .ok i => .run i (keepOffer { m with frame := none } s)
    | .error _ => .wait (keepOffer { m with frame := none } { s with rxStream := s.rxStream ++ bytes })
  | none => channelTurn m s

/-- The choice of R217: RESET, then CH.IOERR, then the channel, then VALIDATE, then a host operation. -/
def choose (m : Moment) (s : State) : Action :=
  if m.rst then .run .reset (keepOffer m s)
  else if m.ioErr then .run .chIoerr (keepOffer m s)
  else frameTurn m s

/-- The next action of a state. -/
def nextAction (s : State) : Action := choose (presentMoment s) (enterMoment s)

/-- The answer to a host word with an unassigned selector: `ILLEGAL`, and nothing changes (R87, R188). -/
def illegalWord (s : State) : State := respond .illegal 0 s

/-- The moment that offers a word of the opcode table and nothing else. Where the phase would let the
channel or VALIDATE go first, they are held back at this moment (R217); in Idle the channel is ready, so
that a command is sent whole. -/
def tableMoment (s : State) (nbits w : Nat) : Moment :=
  let m : Moment := ⟨false, false, s.phase == .idle, false, [], none, none⟩
  match tableWord nbits w with
  | some (.host, bytes) => { m with host := some (.word (le16 (bytes.getD 0 0) (bytes.getD 1 0))) }
  | some (.cmd, bytes) => { m with host := some (.command bytes) }
  | some (.rsp, bytes) => { m with frame := some bytes }
  | _ => m

end Sys2Proof.Machine
end

