-- ==== Sys2Proof/Machine/Step.lean ====
section
/-! DEFINITION. One step of the machine: the next action of the present moment, carried out. -/

namespace Sys2Proof.Machine

/-- One step (00_scope.md R5: one accepted operation or one transferred byte at a time). -/
def step (s : State) : Host.Outcome State Fault Refusal :=
  match nextAction s with
  | .run i s => exec i s
  | .illegal s => .next (illegalWord s)
  | .send f s => sendCommand f.address f.code f.body s
  | .reject e s => .next (rejectRecord e s)
  | .goOn task s => settle task s
  | .wait s => .next s

/-- `s` with a word of the opcode table offered as the very next thing at the ports (log 7). -/
def State.withFetchWord (s : State) (nbits w : Nat) : State :=
  { s with moments := tableMoment s nbits w :: s.moments }

end Sys2Proof.Machine
end

