-- ==== Sys2Proof/Safety.lean ====
section
/-! DEFINITION. What the block keeps: the invariant of its reachable states (10_state.md R40, with what R21,
R26, R30 to R33 and R223 say of the same registers), the transition table of 45_exchange_fsm.md R170, and
what a safe step is. -/

namespace Sys2Proof.Machine

/-- The wire bytes of the command in progress that its CRC covers: length, address, operation code, payload
(R71, R175). -/
def commandHead (s : State) : List Byte :=
  BitVec.ofNat 8 (s.txlen.toNat + 4) :: s.addr :: s.txop :: s.txbuf.span s.txlen.toNat

/-- A response whose first `rxcnt` bytes have been taken: they are written, byte 0 is the length byte, and
`crc` has absorbed those of them that stand before the trailer (R21, R30, R176, R177). -/
structure Receiving (s : State) : Prop where
  written : ∀ i, i < s.rxcnt.toNat → (s.rxbuf.read i).isSome
  lengthByte : s.rxbuf.read 0 = some s.rxlen
  running : s.crc = Sys2Proof.crc (s.rxbuf.span (min s.rxcnt.toNat (s.rxlen.toNat - 1)))

/-- A validated response (R40 (f), R179, R223). -/
structure Validated (s : State) : Prop where
  longEnough : minRspLength ≤ s.rxlen.toNat
  complete : s.rxcnt.toNat = s.rxlen.toNat + 1
  receiving : Receiving s
  trailer : le16 ((s.rxbuf.read (s.rxlen.toNat - 1)).getD 0) ((s.rxbuf.read s.rxlen.toNat).getD 0) = s.crc
  status : s.rxbuf.read 3 = some s.resStatus
  accepted : ∃ st, statusDecode s.params s.resStatus = some st ∧
    (classify st = .success ∨ (st = .named .noTags ∧ s.txop = opInventory))

/-- What holds after reset and after every step (R40). -/
structure Inv (s : State) : Prop where
  /-- R40 (a) -/
  txlenBound : s.txlen.toNat ≤ 252
  /-- R26: every staged byte has been written -/
  staged : ∀ i, i < s.txlen.toNat → i < maxPayload → (s.txbuf.read i).isSome
  /-- R40 (b), and the running CRC of R175 -/
  sending : s.phase = .sending → s.txlen.toNat ≤ maxPayload ∧ isOperation s.txop = true ∧
    s.txidx.toNat ≤ s.txlen.toNat + 4 ∧ s.crc = Sys2Proof.crc ((commandHead s).take s.txidx.toNat)
  /-- R40 (c) -/
  awaitingLength : s.phase = .awaitingLength → s.rxcnt = 0 ∧ s.crc = crcSeed
  /-- R40 (d) -/
  awaitingBody : s.phase = .awaitingBody →
    1 ≤ s.rxcnt.toNat ∧ s.rxcnt.toNat ≤ s.rxlen.toNat ∧ Receiving s
  /-- R40 (e) -/
  validating : s.phase = .validating → s.rxcnt.toNat = s.rxlen.toNat + 1 ∧ Receiving s
  /-- R40 (f) -/
  success : s.phase = .success → Validated s
  /-- R40 (g) -/
  failed : s.phase = .failed ↔ s.resClass ≠ .none
  /-- R31, R32, R211: what a failed exchange records -/
  recorded : s.resClass ≠ .none → (s.resClass, s.resCause) ∈ recordedFailures
  /-- R32 -/
  noCause : s.resClass = .none → s.resCause = .none
  /-- R33, R213 -/
  noStatus : s.phase ≠ .success → s.resCause ≠ .status → s.resCause ≠ .unknownStatus →
    s.resStatus = 0
  /-- the canonical form of the buffers -/
  txbufForm : s.txbuf.wf = true
  rxbufForm : s.rxbuf.wf = true

/-- What VALIDATE makes of a received frame, by the functions of 43_response_codec.md and
44_status_classifier.md (R179, last sentences of its pseudocode: steps 1 to 3 fail as `decode_response`
does, step 4 is R162 and R164). The status byte is recorded once length and CRC have passed. -/
def judgedBy (frame : List Byte) (s : State) : State :=
  match decodeResponse s.params frame with
  | .error e =>
    raiseFail e.cls e.cause
      (if e.cause = .unknownStatus then { s with resStatus := frame.getD 3 0 } else s)
  | .ok r => judgeStatus r.status { s with resStatus := frame.getD 3 0 }

/-- What the host of an exchange gets from a received frame (R192): what `onOk` makes of status byte and payload
exactly when `decode_response` succeeds and the status is successful or is NoTags answering Inventory; class, cause
and recorded status byte otherwise. -/
def exchangeResult (onOk : Byte → List Byte → HostResult) (p : Params) (op : Byte) (frame : List Byte) :
    HostResult :=
  match decodeResponse p frame with
  | .error e =>
    .error e.cls e.cause (some (if e.cause = .unknownStatus then frame.getD 3 0 else 0))
  | .ok r =>
    if successful r.status ∨ (r.status = .named .noTags ∧ op = opInventory) then
      onOk (frame.getD 3 0) r.payload
    else .error (classify r.status).resClass .status (some (frame.getD 3 0))

/-- The transitions of `phase` (R170), each with its condition, for the operations and events of R79. An
operation or event not listed for a phase leaves it. -/
def nextPhase (i : Instr) (s : State) : Phase → Prop :=
  match i, s.phase with
  | .xchgStart op, .idle => fun ph =>
    ph = if isOperation op = true ∧ s.txlen.toNat ≤ maxPayload then .sending else .failed
  | .chTxbyte, .sending => fun ph =>
    ph = if s.txidx.toNat = s.txlen.toNat + 4 then .awaitingLength else .sending
  | .chIoerr, .sending => fun ph => ph = .failed
  | .chRxbyteLength b, .awaitingLength => fun ph => ph = if b = 0 then .validating else .awaitingBody
  | .chIoerr, .awaitingLength => fun ph => ph = .failed
  | .chRxbyteBody _, .awaitingBody => fun ph =>
    ph = if s.rxcnt.toNat = s.rxlen.toNat then .validating else .awaitingBody
  | .chIoerr, .awaitingBody => fun ph => ph = .failed
  | .validate, .validating => fun ph => ph = .success ∨ ph = .failed
  | .xchgAck, .success => fun ph => ph = .idle
  | .xchgAck, .failed => fun ph => ph = .idle
  | .reset, _ => fun ph => ph = .idle
  | _, ph₀ => fun ph => ph = ph₀

/-- The operations and events of R79: the HOST and EVENT rows. -/
def isOperationOfBlock (i : Instr) : Bool := i.format == .host || i.format == .event

/-! ## What whole commands, responses and exchanges leave behind -/

/-- `m` holds `bytes` from index 0 on, and what `old` holds everywhere else. -/
def Stored (bytes : List Byte) (old m : Memory) : Prop :=
  ∀ i, m.read i = if i < bytes.length then bytes[i]? else old.read i

/-- `m` holds `bytes` from index `k` on, and what `old` holds everywhere else. -/
def StoredFrom (k : Nat) (bytes : List Byte) (old m : Memory) : Prop :=
  ∀ i, m.read i = if k ≤ i ∧ i < k + bytes.length then bytes[i - k]? else old.read i

/-- The first byte of `frame` counts the bytes that follow it (R73, R88). -/
def Framed (frame : List Byte) : Prop := frame.length = (frame.getD 0 0).toNat + 1

/-- The state in which a command with this payload has been staged and started and nothing of it has left:
R172 to R174, the payload bytes in `m`. -/
def startedCommand (op : Byte) (payload : List Byte) (m : Memory) (s : State) : State :=
  { s with
    crc := crcSeed, txop := op, txlen := BitVec.ofNat 8 payload.length, txbuf := m, txidx := 0
    phase := .sending, resClass := .none, resCause := .none, resStatus := 0, answer := some ⟨.ok, 0⟩ }

/-- The state in which a command was staged with more than 251 payload bytes and its start failed at once: R173,
R174, the buffer being `m`. -/
def overflowedCommand (op : Byte) (m : Memory) (s : State) : State :=
  { s with
    crc := crcSeed, txop := op, txlen := 252, txbuf := m, txidx := 0
    phase := .failed, resClass := .program, resCause := .payloadTooLong, resStatus := 0, answer := some ⟨.ok, 0⟩ }

/-- The state in which that command has left whole, as the bytes `wire` (R175). -/
def sentCommand (op : Byte) (payload : List Byte) (wire : List Byte) (m : Memory) (s : State) : State :=
  { startedCommand op payload m s with
    phase := .awaitingLength, txidx := BitVec.ofNat 9 (payload.length + 5), rxcnt := 0
    txStream := s.txStream ++ wire }

/-- The state in which the response `frame` has been taken whole, its bytes in `m` (R176, R177). -/
def takenResponse (frame : List Byte) (m : Memory) (s : State) : State :=
  { s with
    rxbuf := m, rxlen := frame.getD 0 0, rxcnt := BitVec.ofNat 9 frame.length
    crc := Sys2Proof.crc (frame.take (frame.length - 2)), phase := .validating }

/-- The state in which `part`, a beginning of a response, has been taken and the rest has not come (R176, R177). -/
def begunResponse (part : List Byte) (m : Memory) (s : State) : State :=
  { s with
    rxbuf := m, rxlen := part.getD 0 0, rxcnt := BitVec.ofNat 9 part.length
    crc := Sys2Proof.crc (part.take ((part.getD 0 0).toNat - 1)), phase := .awaitingBody, rxStream := [] }

/-- The state in which a response in progress has gone on by `bytes`, with `more` still in the channel (R177). -/
def continuedResponse (bytes more : List Byte) (m : Memory) (s : State) : State :=
  { s with
    rxbuf := m, rxcnt := BitVec.ofNat 9 (s.rxcnt.toNat + bytes.length)
    crc := crcFrom s.crc (bytes.take (s.rxlen.toNat - 1 - s.rxcnt.toNat))
    phase := if s.rxcnt.toNat + bytes.length = s.rxlen.toNat + 1 then .validating else .awaitingBody
    rxStream := more }

/-- The state at the end of a pseudo-operation whose command left as `wire` and was answered by `frame`, with
`more` still in the channel (R192: the last operation is `XCHG.ACK`). -/
def endedExchange (op : Byte) (wire frame more : List Byte) (tx rx : Memory) (result : HostResult)
    (s : State) : State :=
  { s with
    crc := crcSeed, phase := .idle, txop := op, txlen := 0, txbuf := tx
    txidx := BitVec.ofNat 9 wire.length, rxlen := frame.getD 0 0, rxcnt := BitVec.ofNat 9 frame.length
    rxbuf := rx, resClass := .none, resCause := .none, resStatus := 0
    txStream := s.txStream ++ wire, rxStream := more
    answer := some ⟨.ok, 0⟩, task := none, result := some result }

/-! ## The host's turn -/

/-- Nothing that R217 puts before a host operation stands at moment `m`: no reset, no channel error, no byte the
phase takes or delivers, no VALIDATE, and no response frame (log 6). -/
def HostFirst (s : State) (m : Moment) : Prop :=
  m.rst = false ∧ m.ioErr = false ∧ m.frame = none
  ∧ (m.chan = true → s.phase ≠ .sending
    ∧ ((s.phase = .awaitingLength ∨ s.phase = .awaitingBody) → s.rxStream ++ m.bytes = []))
  ∧ (m.internal = true → s.phase ≠ .validating)

/-- The state at moment `m` of the run `m :: rest`, before anything happens in it (R53; log 6). -/
def arrived (s : State) (m : Moment) (rest : List Moment) : State :=
  { s with moments := rest, chanReady := m.chan, rxStream := s.rxStream ++ m.bytes }

/-- A step that does not stop. -/
def Completes (r : Result) : Prop := ∃ t, r = .next t

end Sys2Proof.Machine
end

