-- ==== Sys2Proof/Certificates/Slice0/Obligations.lean ====
section
/-! DEFINITION. The statements for the provers. Each docstring names the rule of spec/ that its statement
formalises; where a statement rests on a choice of the model, the docstring names the log entry. -/

open Sys2Proof Sys2Proof.Machine

/-! ## The CRC engine (40_crc.md) -/

/-- R101: the bit step as its pseudocode gives it, and bit by bit. -/
def Obligations.CrcBitStep : Prop :=
  ∀ (c : Word) (d : Bool),
    crcBit c d = (if (c.getLsbD 0 ^^ d) = true then (c >>> 1) ^^^ 0x8408 else c >>> 1)
    ∧ (crcBit c d).getLsbD 15 = (c.getLsbD 0 ^^ d)
    ∧ (crcBit c d).getLsbD 10 = (c.getLsbD 11 ^^ (c.getLsbD 0 ^^ d))
    ∧ (crcBit c d).getLsbD 3 = (c.getLsbD 4 ^^ (c.getLsbD 0 ^^ d))
    ∧ ∀ i, i < 15 → i ≠ 10 → i ≠ 3 → (crcBit c d).getLsbD i = c.getLsbD (i + 1)

/-- R102: the byte step is eight bit steps, bit 0 of the byte first; it equals the form that
exclusive-ors the byte in first (R102's "An equal form", which the spec marks as derived); and the worked
trace. -/
def Obligations.CrcByteStep : Prop :=
  (∀ (c : Word) (b : Byte),
    crcByte c b =
      crcBit (crcBit (crcBit (crcBit (crcBit (crcBit (crcBit (crcBit c (b.getLsbD 0)) (b.getLsbD 1))
        (b.getLsbD 2)) (b.getLsbD 3)) (b.getLsbD 4)) (b.getLsbD 5)) (b.getLsbD 6)) (b.getLsbD 7)
    ∧ crcByte c b = crcByteXorFirst c b)
  ∧ (List.range 8).map
      (fun n => (List.range (n + 1)).foldl (fun c k => crcBit c ((0x61 : Byte).getLsbD k)) 0xFFFF)
    = [0x7FFF, 0xBBF7, 0xD9F3, 0xE8F1, 0xF070, 0xFC30, 0xFA10, 0x7D08]

/-- R103: the checksum of a byte sequence is the loop over it from the seed, and goes on from the checksum
of a prefix (the sentence the spec marks as derived, "the loop is a left fold"); the worked message. -/
def Obligations.CrcOfMessage : Prop :=
  (∀ m : List Byte, crc m = crcFrom 0xFFFF m)
  ∧ (∀ c : Word, crcFrom c [] = c)
  ∧ (∀ (c : Word) (b : Byte) (m : List Byte), crcFrom c (b :: m) = crcFrom (crcByte c b) m)
  ∧ crc [] = 0xFFFF
  ∧ (∀ m t : List Byte, crc (m ++ t) = crcFrom (crc m) t)
  ∧ (List.range 6).map (fun n => crc ([0x61, 0x62, 0x63, 0x64, 0x65, 0x66].take (n + 1)))
    = [0x7D08, 0xCC21, 0x61DA, 0x5C94, 0xE65A, 0xFB09]

/-- R104: the printed table is the byte step of a zero register, entry by entry; the landmarks. -/
def Obligations.CrcTablePrinted : Prop :=
  crcTable.length = 256
  ∧ (∀ i, i < 256 → crcTable[i]? = some (crcByte 0x0000 (BitVec.ofNat 8 i)))
  ∧ crcTable[0x01]? = some 0x1189 ∧ crcTable[0x80]? = some 0x8408 ∧ crcTable[0xFF]? = some 0x0F78

/-- R105 and R106: the table form and the shift form of the byte step are the byte step. -/
def Obligations.CrcOtherForms : Prop :=
  ∀ (c : Word) (b : Byte), crcByte c b = crcByteTable c b ∧ crcByte c b = crcByteShift c b

/-- R107 (b) to (g); (a), that `crc` is a total function of its bytes alone, is its type. -/
def Obligations.CrcProperties : Prop :=
  (∀ (c₁ c₂ : Word) (b₁ b₂ : Byte),
    crcByte (c₁ ^^^ c₂) (b₁ ^^^ b₂) = crcByte c₁ b₁ ^^^ crcByte c₂ b₂)
  ∧ crcByte 0 0 = 0
  ∧ (∀ d : Bool, Function.Bijective fun c : Word => crcBit c d)
  ∧ (∀ b : Byte, Function.Bijective fun c : Word => crcByte c b)
  ∧ (∀ c : Word, Function.Bijective fun ab : Byte × Byte => crcFrom c [ab.1, ab.2])
  ∧ (∀ m : List Byte, crc (m ++ [lo8 (crc m), hi8 (crc m)]) = 0x0000)
  ∧ (∀ (m : List Byte) (a b : Byte), crc (m ++ [a, b]) = 0x0000 → le16 a b = crc m)
  ∧ crc [0x00] = 0x0F87 ∧ crc [0x00] ≠ crc []
  ∧ crc [0xFF, 0xFF] = 0x0000
  ∧ (∀ v : Word, v ≠ 0 → (crcBit v false = v ↔ v = 0xF80F))

/-- R108 to R110: the three operations on the CRC register, their words, their effect in Idle and their
refusal elsewhere, each with its whole next state. -/
def Obligations.CrcOperations : Prop :=
  (∀ w : Word,
    (hi8 w = 0x01 → decodeHost w = .ok .crcInit)
    ∧ (hi8 w = 0x02 → decodeHost w = .ok (.crcUpdate (lo8 w)))
    ∧ (hi8 w = 0x03 → decodeHost w = .ok .crcRead))
  ∧ (∀ (s : State) (b : Byte), s.phase = .idle →
    exec .crcInit s = .next { s with crc := 0xFFFF, answer := some ⟨.ok, 0⟩ }
    ∧ exec (.crcUpdate b) s = .next { s with crc := crcByte s.crc b, answer := some ⟨.ok, 0⟩ }
    ∧ exec .crcRead s = .next { s with answer := some ⟨.ok, s.crc⟩ })
  ∧ (∀ (s : State) (b : Byte), s.phase ≠ .idle →
    ∀ i ∈ [Instr.crcInit, .crcUpdate b, .crcRead],
      exec i s = .next { s with answer := some ⟨.refused, 0⟩ })

/-- R198 with R111: the pseudo-operation `crc m` in Idle is `crc.init`, one `crc.update` for each byte,
`crc.read`, and answers `OK crc(m)`. That one step makes the whole sequence is the model's choice (log 13). -/
def Obligations.CrcOfMessageByOperations : Prop :=
  ∀ (m : List Byte) (s : State), s.phase = .idle →
    exec (.pseudoCrc m) s = .next { s with crc := crc m, answer := some ⟨.ok, crc m⟩ }
    ∧ exec (.pseudoCrc m) s =
      andThen (exec .crcInit s) fun s =>
        andThen (forEach (fun b => exec (.crcUpdate b)) m s) (exec .crcRead)

/-! ## The command framer and the payload builders (41_command_codec.md, 42_payload_builders.md) -/

/-- R120 and R121: a body that fits is framed, its length counted without wrapping; one that does not is an error;
`encode_command` frames with the code of one of the five operations. -/
def Obligations.EncodeFrame : Prop :=
  (∀ (address code : Byte) (body : List Byte),
    (251 < body.length → encodeFrame address code body = .error ⟨.program, .payloadTooLong⟩)
    ∧ (body.length ≤ 251 → ∃ n : Byte, ∃ head : List Byte,
        n.toNat = body.length + 4 ∧ head = [n, address, code] ++ body
        ∧ encodeFrame address code body = .ok (head ++ [lo8 (crc head), hi8 (crc head)])))
  ∧ encodeFrame 10 0x01 [] = .ok [4, 10, 1, 171, 182]
  ∧ (∀ (address : Byte) (payload : List Byte),
    ∀ oc ∈ [(Operation.inventory, (0x01 : Byte)), (.readData, 0x02), (.writeData, 0x03), (.killTag, 0x05),
      (.getReaderInformation, 0x21)],
      encodeCommand address oc.1 payload = encodeFrame address oc.2 payload)
  ∧ encodeCommand 10 .inventory [] = .ok [4, 10, 1, 171, 182]

/-- R133: `build_read`, what it rejects and what it makes; the operation code it is sent with. A word count above 255, to
which the spec gives no byte, is left open (log 21). -/
def Obligations.BuildRead : Prop :=
  (∀ (p : Params) (c : ReadCommand),
    ((c.epc.length % 2 = 1 ∨ (∃ pw, c.password = some pw ∧ pw.length ≠ 4)
        ∨ c.maskAddress.isSome ≠ c.maskLength.isSome) →
      buildRead p c = .error ⟨.program, .badParameter⟩)
    ∧ (c.epc.length % 2 = 0 → (∀ pw, c.password = some pw → pw.length = 4) →
        c.maskAddress.isSome = c.maskLength.isSome →
      ∃ (n : Byte) (payload : List Byte), buildRead p c = .ok payload
        ∧ (c.epc.length < 512 → n.toNat = c.epc.length / 2)
        ∧ payload = [n] ++ c.epc
          ++ [p.memlocCode c.location, c.startAddress, c.count] ++ c.password.getD [0, 0, 0, 0]
          ++ c.maskAddress.toList ++ c.maskLength.toList
        ∧ payload.length = c.epc.length + if c.maskAddress.isSome then 10 else 8)
    ∧ ∀ (address : Byte) (wire : List Byte),
        encode p (.cmdReadData address c) = some wire → wire[2]? = some 0x02)
  ∧ buildRead Params.defaults ⟨[0xE2, 0x00, 0x12, 0x34], .epc, 2, 6, none, none, none⟩
    = .ok [0x02, 0xE2, 0x00, 0x12, 0x34, 0x01, 0x02, 0x06, 0x00, 0x00, 0x00, 0x00]

/-- R134: `build_write`, what it rejects and what it makes; the operation code it is sent with. A word count above 255, to
which the spec gives no byte, is left open (log 21). -/
def Obligations.BuildWrite : Prop :=
  (∀ (p : Params) (c : WriteCommand),
    ((c.epc.length % 2 = 1 ∨ c.data.length % 2 = 1 ∨ (∃ pw, c.password = some pw ∧ pw.length ≠ 4)
        ∨ c.maskAddress.isSome ≠ c.maskLength.isSome) →
      buildWrite p c = .error ⟨.program, .badParameter⟩)
    ∧ (c.epc.length % 2 = 0 → c.data.length % 2 = 0 →
        (∀ pw, c.password = some pw → pw.length = 4) →
        c.maskAddress.isSome = c.maskLength.isSome →
      ∃ (d n : Byte) (payload : List Byte), buildWrite p c = .ok payload
        ∧ (c.data.length < 512 → d.toNat = c.data.length / 2)
        ∧ (c.epc.length < 512 → n.toNat = c.epc.length / 2)
        ∧ payload = [d, n] ++ c.epc
          ++ [p.memlocCode c.location, c.startAddress] ++ c.data ++ c.password.getD [0, 0, 0, 0]
          ++ c.maskAddress.toList ++ c.maskLength.toList
        ∧ payload.length = c.epc.length + c.data.length + if c.maskAddress.isSome then 10 else 8)
    ∧ ∀ (address : Byte) (wire : List Byte),
        encode p (.cmdWriteData address c) = some wire → wire[2]? = some 0x03)
  ∧ buildWrite Params.defaults ⟨[0xE2, 0x00, 0x12, 0x34], .user, 0, [0xDE, 0xAD, 0xBE, 0xEF],
      some [0x11, 0x22, 0x33, 0x44], none, none⟩
    = .ok [0x02, 0x02, 0xE2, 0x00, 0x12, 0x34, 0x03, 0x00, 0xDE, 0xAD, 0xBE, 0xEF, 0x11, 0x22, 0x33, 0x44]

/-- R135: `build_kill`, what it rejects and what it makes; the operation code it is sent with. A word count above 255, to
which the spec gives no byte, is left open (log 21). The printed command
is marked in R135 as derived from R120. -/
def Obligations.BuildKill : Prop :=
  (∀ (p : Params) (c : KillCommand),
    ((c.epc.length % 2 = 1 ∨ (∃ pw, c.password = some pw ∧ pw.length ≠ 4)
        ∨ c.maskAddress.isSome ≠ c.maskLength.isSome) →
      buildKill c = .error ⟨.program, .badParameter⟩)
    ∧ (c.epc.length % 2 = 0 → (∀ pw, c.password = some pw → pw.length = 4) →
        c.maskAddress.isSome = c.maskLength.isSome →
      ∃ (n : Byte) (payload : List Byte), buildKill c = .ok payload
        ∧ (c.epc.length < 512 → n.toNat = c.epc.length / 2)
        ∧ payload = [n] ++ c.epc ++ c.password.getD [0, 0, 0, 0]
          ++ c.maskAddress.toList ++ c.maskLength.toList
        ∧ payload.length = c.epc.length + if c.maskAddress.isSome then 7 else 5)
    ∧ ∀ (address : Byte) (wire : List Byte),
        encode p (.cmdKillTag address c) = some wire → wire[2]? = some 0x05)
  ∧ buildKill ⟨[0xE2, 0x00, 0x12, 0x34], some [0x11, 0x22, 0x33, 0x44], none, none⟩
    = .ok [0x02, 0xE2, 0x00, 0x12, 0x34, 0x11, 0x22, 0x33, 0x44]
  ∧ encode Params.defaults
      (.cmdKillTag 0 ⟨[0xE2, 0x00, 0x12, 0x34], some [0x11, 0x22, 0x33, 0x44], none, none⟩)
    = some [0x0D, 0x00, 0x05, 0x02, 0xE2, 0x00, 0x12, 0x34, 0x11, 0x22, 0x33, 0x44, 0x77, 0x43]

/-! ## The response parser and the status classifier (43_response_codec.md, 44_status_classifier.md) -/

/-- R150: `check_frame`, its tests in their order, and what it yields. -/
def Obligations.CheckFrame : Prop :=
  (∀ buf : List Byte,
    ((buf.length < 1 ∨ (buf.getD 0 0).toNat + 1 ≠ buf.length) →
      checkFrame buf = .error ⟨.program, .badLength⟩)
    ∧ ((buf.getD 0 0).toNat + 1 = buf.length → buf.length < 5 →
      checkFrame buf = .error ⟨.program, .badLength⟩)
    ∧ ((buf.getD 0 0).toNat + 1 = buf.length → 5 ≤ buf.length →
      crc (buf.take (buf.length - 2))
        ≠ le16 (buf.getD (buf.length - 2) 0) (buf.getD (buf.length - 1) 0) →
      checkFrame buf = .error ⟨.program, .badCrc⟩)
    ∧ ((buf.getD 0 0).toNat + 1 = buf.length → 5 ≤ buf.length →
      crc (buf.take (buf.length - 2))
        = le16 (buf.getD (buf.length - 2) 0) (buf.getD (buf.length - 1) 0) →
      checkFrame buf
        = .ok ⟨buf.getD 1 0, buf.getD 2 0, (buf.drop 3).take (buf.length - 2 - 3)⟩))
  ∧ checkFrame [4, 10, 1, 171, 182] = .ok ⟨10, 1, []⟩

/-- R151: `decode_response`, its tests in their order; it succeeds exactly when `check_frame` does with a body
that begins with a known status; the worked frame. -/
def Obligations.DecodeResponse : Prop :=
  (∀ (p : Params) (buf : List Byte),
    (((buf.getD 0 0).toNat + 1 ≠ buf.length ∨ buf.length < 6) →
      decodeResponse p buf = .error ⟨.program, .badLength⟩)
    ∧ ((buf.getD 0 0).toNat + 1 = buf.length → 6 ≤ buf.length →
      (crc (buf.take (buf.length - 2))
        ≠ le16 (buf.getD (buf.length - 2) 0) (buf.getD (buf.length - 1) 0) →
        decodeResponse p buf = .error ⟨.program, .badCrc⟩)
      ∧ (crc (buf.take (buf.length - 2))
        = le16 (buf.getD (buf.length - 2) 0) (buf.getD (buf.length - 1) 0) →
        (statusDecode p (buf.getD 3 0) = none →
          decodeResponse p buf = .error ⟨.program, .unknownStatus⟩)
        ∧ ∀ st, statusDecode p (buf.getD 3 0) = some st →
          decodeResponse p buf =
            .ok ⟨buf.getD 1 0, buf.getD 2 0, st, (buf.drop 4).take (buf.length - 2 - 4)⟩))
    ∧ ∀ r : Response, decodeResponse p buf = .ok r ↔
        ∃ f b payload st, checkFrame buf = .ok f ∧ f.body = b :: payload ∧ statusDecode p b = some st
          ∧ r = ⟨f.address, f.code, st, payload⟩)
  ∧ (∀ p : Params, p.wf = true → decodeResponse p [5, 0, 1, 251, 242, 61] = .ok ⟨0, 1, .named .noTags, []⟩)
  ∧ (∀ (p : Params) (x y : Byte), (x, y) ≠ (242, 61) →
      decodeResponse p [5, 0, 1, 251, x, y] = .error ⟨.program, .badCrc⟩)

/-- R154: the two round trips. -/
def Obligations.FrameRoundTrip : Prop :=
  (∀ (address code : Byte) (body : List Byte), body.length ≤ 251 →
    ∃ frame, encodeFrame address code body = .ok frame ∧ checkFrame frame = .ok ⟨address, code, body⟩)
  ∧ (∀ (p : Params) (address echo b : Byte) (st : Status) (payload : List Byte),
    statusDecode p b = some st → payload.length ≤ 250 →
    ∃ frame, encodeFrame address echo (b :: payload) = .ok frame
      ∧ decodeResponse p frame = .ok ⟨address, echo, st, payload⟩)

/-- R155: the CRC test of a frame and the zero residue of the whole frame are the same test. -/
def Obligations.ResidueForm : Prop :=
  (∀ buf : List Byte, 2 ≤ buf.length →
    (crc buf = 0x0000 ↔
      crc (buf.take (buf.length - 2)) = le16 (buf.getD (buf.length - 2) 0) (buf.getD (buf.length - 1) 0))
    ∧ (trailerOk buf = true ↔ crc buf = 0x0000))
  ∧ crc [5, 0, 1, 251, 242, 61] = 0x0000 ∧ crc [4, 10, 1, 171, 182] = 0x0000

/-- R161: `status_decode` gives a named status exactly for its code, another enumerated one exactly for a
member of `STATUS_OTHER`, and nothing for any other byte; it merges no two known bytes. -/
def Obligations.StatusDecode : Prop :=
  (∀ p : Params, p.wf = true →
    (∀ b n, statusDecode p b = some (.named n) ↔ p.statusCode n = b)
    ∧ (∀ b b', statusDecode p b = some (.other b') ↔ b' = b ∧ b ∈ p.statusOther)
    ∧ (∀ b, statusDecode p b = none ↔ (∀ n, p.statusCode n ≠ b) ∧ b ∉ p.statusOther)
    ∧ (∀ b b' st, statusDecode p b = some st → statusDecode p b' = some st → b = b')
    ∧ statusDecode p 0x00 = some (.named .ok) ∧ statusDecode p 0xFB = some (.named .noTags))
  ∧ Params.defaults.wf = true ∧ statusDecode Params.defaults 0x77 = none

/-- R162 and R163: the class of every member of the enumeration, and which are successful. -/
def Obligations.Classify : Prop :=
  (∀ n ∈ [StatusName.ok, .returnBeforeInventoryFinished, .scanTimeOverflow, .moreData],
    classify (.named n) = .success)
  ∧ (∀ n ∈ [StatusName.poorCommunication, .noTags], classify (.named n) = .communication)
  ∧ (∀ n ∈ [StatusName.accessPasswordError, .killTagError, .killPasswordZero, .commandNotSupported],
    classify (.named n) = .protocol)
  ∧ (∀ n ∈ [StatusName.wrongLength, .illegalCommand, .parameterError], classify (.named n) = .program)
  ∧ (∀ b, classify (.other b) = .program)
  ∧ (∀ st, successful st = true ↔ classify st = .success)

/-! ## Configuration, staging, start and end of an exchange (45_exchange_fsm.md) -/

/-- R171: `CFG.ADDR a`. -/
def Obligations.CfgAddr : Prop :=
  (∀ w : Word, hi8 w = 0x10 → decodeHost w = .ok (.cfgAddr (lo8 w)))
  ∧ ∀ (a : Byte) (s : State),
    (s.phase = .idle → exec (.cfgAddr a) s = .next { s with addr := a, answer := some ⟨.ok, 0⟩ })
    ∧ (s.phase ≠ .idle → exec (.cfgAddr a) s = .next { s with answer := some ⟨.refused, 0⟩ })

/-- R172: `TX.CLEAR`; the bytes of the buffer are not changed. -/
def Obligations.TxClear : Prop :=
  (∀ w : Word, hi8 w = 0x11 → decodeHost w = .ok .txClear)
  ∧ ∀ s : State,
    (s.phase = .idle → exec .txClear s = .next { s with txlen := 0, answer := some ⟨.ok, 0⟩ })
    ∧ (s.phase ≠ .idle → exec .txClear s = .next { s with answer := some ⟨.refused, 0⟩ })

/-- R173: `TX.PUSH b` stores at the next free index up to 251 bytes; from then on it stores nothing and
`txlen` stays at 252 until `TX.CLEAR`, `XCHG.ACK` or reset. -/
def Obligations.TxPush : Prop :=
  (∀ w : Word, hi8 w = 0x12 → decodeHost w = .ok (.txPush (lo8 w)))
  ∧ (∀ (b : Byte) (s : State),
    (s.phase = .idle → s.txlen.toNat < 251 →
      ∃ m n, exec (.txPush b) s = .next { s with txbuf := m, txlen := n, answer := some ⟨.ok, 0⟩ }
        ∧ n.toNat = s.txlen.toNat + 1
        ∧ m.read s.txlen.toNat = some b ∧ ∀ i, i ≠ s.txlen.toNat → m.read i = s.txbuf.read i)
    ∧ (s.phase = .idle → 251 ≤ s.txlen.toNat →
      exec (.txPush b) s = .next { s with txlen := 252, answer := some ⟨.ok, 0⟩ })
    ∧ (s.phase ≠ .idle → exec (.txPush b) s = .next { s with answer := some ⟨.refused, 0⟩ }))
  ∧ (∀ (i : Instr) (s t : State), isOperationOfBlock i = true → s.txlen = 252 → exec i s = .next t →
      t.txlen = 252 ∨ i = .txClear ∨ i = .xchgAck ∨ i = .reset)

/-- R174 (its pseudocode): `XCHG.START op`; nothing is emitted by it. -/
def Obligations.XchgStart : Prop :=
  (∀ w : Word, hi8 w = 0x13 → decodeHost w = .ok (.xchgStart (lo8 w)))
  ∧ ∀ (op : Byte) (s : State),
    (s.phase = .idle → op ∉ [0x01, 0x02, 0x03, 0x05, 0x21] →
      exec (.xchgStart op) s = .next
        { s with
          crc := 0xFFFF, txop := op, txidx := 0, resStatus := 0x00, phase := .failed
          resClass := .program, resCause := .illegalOperation, answer := some ⟨.ok, 0⟩ })
    ∧ (s.phase = .idle → op ∈ [0x01, 0x02, 0x03, 0x05, 0x21] → 251 < s.txlen.toNat →
      exec (.xchgStart op) s = .next
        { s with
          crc := 0xFFFF, txop := op, txidx := 0, resStatus := 0x00, phase := .failed
          resClass := .program, resCause := .payloadTooLong, answer := some ⟨.ok, 0⟩ })
    ∧ (s.phase = .idle → op ∈ [0x01, 0x02, 0x03, 0x05, 0x21] → s.txlen.toNat ≤ 251 →
      exec (.xchgStart op) s = .next
        { s with
          crc := 0xFFFF, txop := op, txidx := 0, resStatus := 0x00, phase := .sending
          resClass := .none, resCause := .none, answer := some ⟨.ok, 0⟩ })
    ∧ (s.phase ≠ .idle → exec (.xchgStart op) s = .next { s with answer := some ⟨.refused, 0⟩ })

/-- R180: `XCHG.ACK`; `rxbuf`, `rxlen`, `rxcnt`, `txidx`, `txop` and `addr` are left as they are. -/
def Obligations.XchgAck : Prop :=
  (∀ w : Word, hi8 w = 0x14 → decodeHost w = .ok .xchgAck)
  ∧ ∀ s : State,
    (s.phase = .success ∨ s.phase = .failed →
      exec .xchgAck s = .next
        { s with
          phase := .idle, crc := 0xFFFF, txlen := 0
          resClass := .none, resCause := .none, resStatus := 0x00, answer := some ⟨.ok, 0⟩ })
    ∧ (s.phase ≠ .success → s.phase ≠ .failed →
      exec .xchgAck s = .next { s with answer := some ⟨.refused, 0⟩ })

/-! ## The events -/

/-- R175 (its pseudocode): `CH.TXBYTE` emits the wire byte of index `txidx`; outside Sending it does not
happen (log 17). The staged bytes are assumed written, as the invariant says they are. -/
def Obligations.ChTxbyte : Prop :=
  ∀ s : State,
    (s.phase = .sending → s.txlen.toNat ≤ 251 → s.txidx.toNat ≤ s.txlen.toNat + 4 →
      (∀ i, i < s.txlen.toNat → (s.txbuf.read i).isSome) →
      ∃ b : Byte,
        (s.txidx.toNat = 0 → b.toNat = s.txlen.toNat + 4)
        ∧ (s.txidx.toNat = 1 → b = s.addr)
        ∧ (s.txidx.toNat = 2 → b = s.txop)
        ∧ (3 ≤ s.txidx.toNat → s.txidx.toNat < s.txlen.toNat + 3 →
          s.txbuf.read (s.txidx.toNat - 3) = some b)
        ∧ (s.txidx.toNat = s.txlen.toNat + 3 → b = lo8 s.crc)
        ∧ (s.txidx.toNat = s.txlen.toNat + 4 → b = hi8 s.crc)
        ∧ exec .chTxbyte s = .next
          { s with
            txStream := s.txStream ++ [b]
            txidx := BitVec.ofNat 9 (s.txidx.toNat + 1)
            crc := if s.txidx.toNat < s.txlen.toNat + 3 then crcByte s.crc b
              else if s.txidx.toNat = s.txlen.toNat + 4 then 0xFFFF else s.crc
            phase := if s.txidx.toNat = s.txlen.toNat + 4 then .awaitingLength else .sending
            rxcnt := if s.txidx.toNat = s.txlen.toNat + 4 then 0 else s.rxcnt })
    ∧ (s.phase ≠ .sending → exec .chTxbyte s = .next s)

/-- R176 (its pseudocode): `CH.RXBYTE b` in AwaitingLength. In any other phase this event takes nothing and
the byte stays in the channel (R53; log 17). -/
def Obligations.ChRxbyteLength : Prop :=
  ∀ (b : Byte) (s : State),
    (s.phase = .awaitingLength →
      ∃ m, exec (.chRxbyteLength b) s = .next
          { s with
            rxbuf := m, rxlen := b, rxcnt := 1
            crc := if 2 ≤ b.toNat then crcByte s.crc b else s.crc
            phase := if b = 0 then .validating else .awaitingBody }
        ∧ m.read 0 = some b ∧ ∀ i, i ≠ 0 → m.read i = s.rxbuf.read i)
    ∧ (s.phase ≠ .awaitingLength →
      exec (.chRxbyteLength b) s = .next { s with rxStream := b :: s.rxStream })

/-- R177 (its pseudocode): `CH.RXBYTE b` in AwaitingBody, with `rxcnt` at a wire index of the response. In
any other phase this event takes nothing and the byte stays in the channel (R53; log 17). -/
def Obligations.ChRxbyteBody : Prop :=
  ∀ (b : Byte) (s : State),
    (s.phase = .awaitingBody → s.rxcnt.toNat ≤ s.rxlen.toNat →
      ∃ m, exec (.chRxbyteBody b) s = .next
          { s with
            rxbuf := m, rxcnt := BitVec.ofNat 9 (s.rxcnt.toNat + 1)
            crc := if s.rxcnt.toNat + 2 ≤ s.rxlen.toNat then crcByte s.crc b else s.crc
            phase := if s.rxcnt.toNat = s.rxlen.toNat then .validating else .awaitingBody }
        ∧ m.read s.rxcnt.toNat = some b ∧ ∀ i, i ≠ s.rxcnt.toNat → m.read i = s.rxbuf.read i)
    ∧ (s.phase ≠ .awaitingBody →
      exec (.chRxbyteBody b) s = .next { s with rxStream := b :: s.rxStream })

/-- R178 and R218: `CH.IOERR` fails an exchange in progress and saves or changes nothing else; in every other
phase it changes nothing. -/
def Obligations.ChIoerr : Prop :=
  ∀ s : State,
    (s.phase = .sending ∨ s.phase = .awaitingLength ∨ s.phase = .awaitingBody →
      exec .chIoerr s = .next
        { s with phase := .failed, resClass := .io, resCause := .channelError })
    ∧ (s.phase ≠ .sending → s.phase ≠ .awaitingLength → s.phase ≠ .awaitingBody →
      exec .chIoerr s = .next s)

/-- R179 (its pseudocode): `VALIDATE`, its steps in their order; outside Validating it does not happen
(log 17). The bytes it reads are assumed written, as the invariant says they are. -/
def Obligations.Validate : Prop :=
  ∀ s : State,
    (s.phase = .validating → s.rxlen.toNat < 5 →
      exec .validate s = .next { s with phase := .failed, resClass := .program, resCause := .badLength })
    ∧ (∀ lo hi b : Byte, s.phase = .validating → 5 ≤ s.rxlen.toNat →
      s.rxbuf.read (s.rxlen.toNat - 1) = some lo → s.rxbuf.read s.rxlen.toNat = some hi →
      s.rxbuf.read 3 = some b →
      (s.crc ≠ le16 lo hi →
        exec .validate s = .next { s with phase := .failed, resClass := .program, resCause := .badCrc })
      ∧ (s.crc = le16 lo hi → statusDecode s.params b = none →
        exec .validate s = .next
          { s with resStatus := b, phase := .failed, resClass := .program, resCause := .unknownStatus })
      ∧ (∀ st, s.crc = le16 lo hi → statusDecode s.params b = some st →
        (classify st = .success ∨ (st = .named .noTags ∧ s.txop = 0x01) →
          exec .validate s = .next { s with resStatus := b, phase := .success })
        ∧ (classify st ≠ .success → ¬(st = .named .noTags ∧ s.txop = 0x01) →
          exec .validate s = .next
            { s with
              resStatus := b, phase := .failed, resCause := .status
              resClass := match classify st with
                | .success => .none
                | .communication => .communication
                | .protocol => .protocol
                | .program => .program })))
    ∧ (s.phase ≠ .validating → exec .validate s = .next s)

/-- R179, the sentence that the outcome of `VALIDATE` equals that of the functions: in a state of the invariant
it is what `decode_response` and `classify` make of the received frame. -/
def Obligations.ValidateIsDecodeResponse : Prop :=
  ∀ s : State, Inv s → s.phase = .validating →
    exec .validate s = .next (judgedBy (s.rxbuf.span (s.rxlen.toNat + 1)) s)
    ∧ (∀ e, decodeResponse s.params (s.rxbuf.span (s.rxlen.toNat + 1)) = .error e →
      ∃ st, exec .validate s = .next
        { s with resStatus := st, phase := .failed, resClass := e.cls, resCause := e.cause })
    ∧ (∀ r, decodeResponse s.params (s.rxbuf.span (s.rxlen.toNat + 1)) = .ok r →
      ∃ t, exec .validate s = .next t
        ∧ (t.phase = .success ↔
          successful r.status = true ∨ (r.status = .named .noTags ∧ s.txop = 0x01)))

/-- R240, R41, R38, R175, R176: after `RESET`, from any state, and in `State.reset`, every register and output is as the
tables say; the buffers' content after `RESET` is left open; the outputs in every phase. That RESET leaves the channel's
bytes is R241; that it leaves a waiting pseudo-operation, its result and the last answer is log 18; that `rst` stands in
the present moment, before everything else offered, is log 6. -/
def Obligations.Reset : Prop :=
  (∀ s : State, (busy s = true ↔ s.phase ≠ .idle) ∧ (done s = true ↔ s.phase = .success ∨ s.phase = .failed)
    ∧ (txValid s = true ↔ s.phase = .sending)
    ∧ (rxReady s = true ↔ s.phase = .awaitingLength ∨ s.phase = .awaitingBody))
  ∧ (∀ s : State, ∃ tx rx, exec .reset s = .next
    { s with
      crc := 0xFFFF, addr := 0x00, phase := .idle, txop := 0x00, txlen := 0, txidx := 0, rxlen := 0
      rxcnt := 0, resClass := .none, resCause := .none, resStatus := 0x00, txbuf := tx, rxbuf := rx })
  ∧ (∀ s t : State, exec .reset s = .next t →
    busy t = false ∧ done t = false ∧ txValid t = false ∧ rxReady t = false)
  ∧ (∀ s : State, (presentMoment s).rst = true → ∃ s', step s = exec .reset s')
  ∧ (State.reset.crc = 0xFFFF ∧ State.reset.addr = 0x00 ∧ State.reset.phase = .idle
    ∧ State.reset.txop = 0x00 ∧ State.reset.txlen = 0 ∧ State.reset.txidx = 0 ∧ State.reset.rxlen = 0
    ∧ State.reset.rxcnt = 0 ∧ State.reset.resClass = .none ∧ State.reset.resCause = .none
    ∧ State.reset.resStatus = 0x00)
  ∧ busy State.reset = false ∧ done State.reset = false
  ∧ txValid State.reset = false ∧ rxReady State.reset = false

/-! ## The host's reads -/

/-- R181, R182, R184, R186: the reads that are legal in every phase; each changes nothing but the answer; the codes of
R91 and R211, and the nine answers of R211 in Failed. -/
def Obligations.ReadsOfAnyPhase : Prop :=
  (∀ w : Word,
    (hi8 w = 0x20 → decodeHost w = .ok .rdPhase) ∧ (hi8 w = 0x21 → decodeHost w = .ok .rdResult)
    ∧ (hi8 w = 0x23 → decodeHost w = .ok .rdAddr) ∧ (hi8 w = 0x25 → decodeHost w = .ok .rdTxlen))
  ∧ (∀ s : State,
    (∃ d : Word, exec .rdPhase s = .next { s with answer := some ⟨.ok, d⟩ }
      ∧ d.toNat = match s.phase with
        | .idle => 0 | .sending => 1 | .awaitingLength => 2 | .awaitingBody => 3
        | .validating => 4 | .success => 5 | .failed => 6)
    ∧ (∃ d : Word, exec .rdResult s = .next { s with answer := some ⟨.ok, d⟩ }
      ∧ d.toNat =
        256 * (match s.resClass with
          | .none => 0 | .io => 1 | .communication => 2 | .protocol => 3 | .program => 4)
        + match s.resCause with
          | .none => 0x00 | .channelError => 0x01 | .status => 0x02 | .payloadTooLong => 0x10
          | .illegalOperation => 0x11 | .badParameter => 0x12 | .badLength => 0x20 | .badCrc => 0x21
          | .unknownStatus => 0x22 | .badPayload => 0x23)
    ∧ (∃ d : Word, exec .rdAddr s = .next { s with answer := some ⟨.ok, d⟩ } ∧ d.toNat = s.addr.toNat)
    ∧ (∃ d : Word, exec .rdTxlen s = .next { s with answer := some ⟨.ok, d⟩ }
      ∧ d.toNat = s.txlen.toNat))
  ∧ (∀ s : State, Inv s → s.phase ≠ .failed →
      exec .rdResult s = .next { s with answer := some ⟨.ok, 0⟩ })
  ∧ (∀ s : State, Inv s → s.phase = .failed →
      ∃ d ∈ [(0x0101 : Word), 0x0202, 0x0302, 0x0402, 0x0410, 0x0411, 0x0420, 0x0421, 0x0422],
        exec .rdResult s = .next { s with answer := some ⟨.ok, d⟩ })

/-- R183 and R185: `RD.STATUS` in Success and Failed, `RD.RXLEN` in Success, and their refusals. -/
def Obligations.ReadsOfAnEndedExchange : Prop :=
  (∀ w : Word,
    (hi8 w = 0x22 → decodeHost w = .ok .rdStatus) ∧ (hi8 w = 0x24 → decodeHost w = .ok .rdRxlen))
  ∧ (∀ s : State,
    (s.phase = .success ∨ s.phase = .failed →
      ∃ d : Word, exec .rdStatus s = .next { s with answer := some ⟨.ok, d⟩ }
        ∧ d.toNat = s.resStatus.toNat)
    ∧ (s.phase ≠ .success → s.phase ≠ .failed →
      exec .rdStatus s = .next { s with answer := some ⟨.refused, 0⟩ })
    ∧ (s.phase = .success →
      ∃ d : Word, exec .rdRxlen s = .next { s with answer := some ⟨.ok, d⟩ }
        ∧ d.toNat = s.rxlen.toNat)
    ∧ (s.phase ≠ .success → exec .rdRxlen s = .next { s with answer := some ⟨.refused, 0⟩ }))
  ∧ (∀ s : State, Inv s → s.phase = .success → 5 ≤ s.rxlen.toNat)
  ∧ (∀ s : State, Inv s → s.phase = .failed → s.resCause ≠ .status → s.resCause ≠ .unknownStatus →
      exec .rdStatus s = .next { s with answer := some ⟨.ok, 0⟩ })

/-- R187: `RD.RSP i`; in a state of the invariant every index up to `rxlen - 2` is answered. -/
def Obligations.RdRsp : Prop :=
  (∀ w : Word, hi8 w = 0x26 → decodeHost w = .ok (.rdRsp (lo8 w)))
  ∧ (∀ (i : Byte) (s : State),
    (s.phase ≠ .success → exec (.rdRsp i) s = .next { s with answer := some ⟨.refused, 0⟩ })
    ∧ (s.phase = .success → s.rxlen.toNat < i.toNat + 2 →
      exec (.rdRsp i) s = .next { s with answer := some ⟨.range, 0⟩ })
    ∧ (∀ b, s.phase = .success → i.toNat + 2 ≤ s.rxlen.toNat → s.rxbuf.read i.toNat = some b →
      ∃ d : Word, exec (.rdRsp i) s = .next { s with answer := some ⟨.ok, d⟩ } ∧ d.toNat = b.toNat))
  ∧ (∀ (i : Byte) (s : State), Inv s → s.phase = .success → i.toNat + 2 ≤ s.rxlen.toNat →
      (s.rxbuf.read i.toNat).isSome)

/-- R188 and R87: a host operation outside its legal phases is answered `REFUSED`, a word with an unassigned
selector `ILLEGAL` by the step whose host turn it is (log 6), and no state element changes; every host operation that
answers at all is answered at once. -/
def Obligations.Refusal : Prop :=
  (∀ (i : Instr) (s : State), i.format = .host → legalIn i s.phase = false →
    exec i s = .next { s with answer := some ⟨.refused, 0⟩ })
  ∧ (∀ (w : Word) (s : State),
    hi8 w ∉ [0x01, 0x02, 0x03, 0x10, 0x11, 0x12, 0x13, 0x14, 0x20, 0x21, 0x22, 0x23, 0x24, 0x25, 0x26] →
    ∀ m rest, s.moments = m :: rest → HostFirst s m → m.host = some (.word w) →
    step s = .next { arrived s m rest with answer := some ⟨.illegal, 0⟩ })
  ∧ (∀ (i : Instr) (s t : State), i.format = .host → exec i s = .next t → t.answer.isSome)

/-! ## Properties of all operations and events of the block -/

/-- R170: no operation or event changes `phase` but as the transition table says. -/
def Obligations.PhaseTransitions : Prop :=
  ∀ (i : Instr) (s t : State), isOperationOfBlock i = true → exec i s = .next t → nextPhase i s t.phase

/-- R212: only `XCHG.START`, `CH.IOERR` and `VALIDATE` enter phase Failed, each with its own causes; and the answers
`REFUSED`, `ILLEGAL` and `RANGE` of a host operation change no state; that a moment offers the word is log 6. -/
def Obligations.FailuresRaisedBy : Prop :=
  (∀ (i : Instr) (s t : State), isOperationOfBlock i = true → exec i s = .next t →
    s.phase ≠ .failed → t.phase = .failed →
    ((∃ op, i = .xchgStart op) ∧ t.resClass = .program
        ∧ (t.resCause = .illegalOperation ∨ t.resCause = .payloadTooLong))
      ∨ (i = .chIoerr ∧ t.resClass = .io ∧ t.resCause = .channelError)
      ∨ (i = .validate ∧ t.resClass = .program
        ∧ (t.resCause = .badLength ∨ t.resCause = .badCrc ∨ t.resCause = .unknownStatus))
      ∨ (i = .validate ∧ t.resCause = .status
        ∧ (t.resClass = .communication ∨ t.resClass = .protocol ∨ t.resClass = .program)))
  ∧ (∀ (i : Instr) (s t : State) (a : Answer), i.format = .host → exec i s = .next t →
    t.answer = some a → a.rcode ≠ .ok → t = { s with answer := some a })
  ∧ (∀ (s : State) (m : Moment) (rest : List Moment) (w : Word) (e : DecodeError), s.moments = m :: rest →
    HostFirst s m → m.host = some (.word w) → decodeHost w = .error e →
    step s = .next { arrived s m rest with answer := some ⟨.illegal, 0⟩ })

/-- R21 to R33, R50 to R52 (who writes what): which operation or event can change each register, buffer byte and
stream, and that none changes the model's own fields but the answer (a byte given to `CH.RXBYTE` that is not taken stays in
the channel, log 17); a buffer byte changes only at the index being filled (`RESET` leaves the buffers open; log 3). Then R40 (h): in
Idle the register is the seed until `CRC.UPDATE` changes it, and `RESET`, `CRC.INIT`, `XCHG.ACK` seed it again. -/
def Obligations.WritersOfState : Prop :=
  (∀ (i : Instr) (s t : State), isOperationOfBlock i = true → exec i s = .next t → i ≠ .reset →
    (t.crc ≠ s.crc → i = .crcInit ∨ (∃ b, i = .crcUpdate b) ∨ (∃ op, i = .xchgStart op) ∨ i = .chTxbyte
      ∨ (∃ b, i = .chRxbyteLength b) ∨ (∃ b, i = .chRxbyteBody b) ∨ i = .xchgAck)
    ∧ (t.addr ≠ s.addr → ∃ a, i = .cfgAddr a)
    ∧ (t.txop ≠ s.txop → ∃ op, i = .xchgStart op)
    ∧ (t.txlen ≠ s.txlen → i = .txClear ∨ (∃ b, i = .txPush b) ∨ i = .xchgAck)
    ∧ (t.txidx ≠ s.txidx → (∃ op, i = .xchgStart op) ∨ i = .chTxbyte)
    ∧ (t.rxlen ≠ s.rxlen → ∃ b, i = .chRxbyteLength b)
    ∧ (t.rxcnt ≠ s.rxcnt → i = .chTxbyte ∨ (∃ b, i = .chRxbyteLength b) ∨ ∃ b, i = .chRxbyteBody b)
    ∧ (t.resStatus ≠ s.resStatus → i = .validate ∨ (∃ op, i = .xchgStart op) ∨ i = .xchgAck)
    ∧ (∀ k, t.txbuf.read k ≠ s.txbuf.read k →
      ∃ b, i = .txPush b ∧ s.phase = .idle ∧ k = s.txlen.toNat ∧ k < 251 ∧ t.txbuf.read k = some b)
    ∧ (∀ k, t.rxbuf.read k ≠ s.rxbuf.read k →
      ∃ b, t.rxbuf.read k = some b
        ∧ ((i = .chRxbyteLength b ∧ s.phase = .awaitingLength ∧ k = 0)
          ∨ (i = .chRxbyteBody b ∧ s.phase = .awaitingBody ∧ k = s.rxcnt.toNat)))
    ∧ (t.txStream ≠ s.txStream →
      i = .chTxbyte ∧ s.phase = .sending ∧ ∃ b, t.txStream = s.txStream ++ [b])
    ∧ (t.phase ≠ s.phase → (∃ op, i = .xchgStart op) ∨ i = .chTxbyte ∨ (∃ b, i = .chRxbyteLength b)
      ∨ (∃ b, i = .chRxbyteBody b) ∨ i = .chIoerr ∨ i = .validate ∨ i = .xchgAck)
    ∧ (t.resClass ≠ s.resClass → (∃ op, i = .xchgStart op) ∨ i = .chIoerr ∨ i = .validate ∨ i = .xchgAck)
    ∧ (t.resCause ≠ s.resCause → (∃ op, i = .xchgStart op) ∨ i = .chIoerr ∨ i = .validate ∨ i = .xchgAck)
    ∧ (t.rxStream ≠ s.rxStream → ∃ b, t.rxStream = b :: s.rxStream
      ∧ ((i = .chRxbyteLength b ∧ s.phase ≠ .awaitingLength) ∨ (i = .chRxbyteBody b ∧ s.phase ≠ .awaitingBody)))
    ∧ (t.answer ≠ s.answer → i.format = .host)
    ∧ t.params = s.params ∧ t.chanReady = s.chanReady ∧ t.moments = s.moments ∧ t.task = s.task
    ∧ t.result = s.result)
  ∧ (∀ (i : Instr) (s t : State), isOperationOfBlock i = true → exec i s = .next t → t.phase = .idle →
    ((∀ b, i ≠ .crcUpdate b) → (s.phase = .idle → s.crc = 0xFFFF) → t.crc = 0xFFFF)
    ∧ (i = .reset ∨ i = .crcInit ∨ (i = .xchgAck ∧ s.phase ≠ .idle) → t.crc = 0xFFFF))

/-- R35 (d) and R152: in phase Failed the bytes of the response have no effect on anything a step does. -/
def Obligations.FailedHidesResponse : Prop :=
  ∀ (i : Instr) (s t : State) (m : Memory), isOperationOfBlock i = true → s.phase = .failed →
    exec i s = .next t →
    ∃ m', exec i { s with rxbuf := m } = .next { t with rxbuf := m' }

/-- R199 and R220: once an exchange has ended, no operation or event but `XCHG.ACK` and `RESET` changes anything except
the host's answer and the bytes that stay in the channel. -/
def Obligations.EndedExchangeIsStable : Prop :=
  ∀ (i : Instr) (s t : State), isOperationOfBlock i = true → (s.phase = .success ∨ s.phase = .failed) →
    i ≠ .xchgAck → i ≠ .reset → exec i s = .next t →
    t = { s with answer := t.answer, rxStream := t.rxStream }

/-! ## Whole commands and responses (30_encoding.md R71, R72; log 8, log 10) -/

/-- R121, R175, R76: a command of each of the five operations, given in Idle to a channel that takes bytes, leaves whole as
`encode_command` of its address and payload, and the block then awaits the response; and every command frame of the closed
set that the host offers leaves byte for byte as it stands, whatever its payload (R124). That a CMD row stands for staging,
starting and sending is the model's choice (log 8), and so is that a host offers a frame (log 19). A channel that takes only
some of the bytes is a run of several moments (log 16). -/
def Obligations.CommandSentWhole : Prop :=
  (∀ (address : Byte) (s : State), s.phase = .idle → s.chanReady = true →
    (∃ wire m, encodeFrame address 0x01 [] = .ok wire ∧ Stored [] s.txbuf m
      ∧ exec (.cmdInventory address) s = .next (sentCommand 0x01 [] wire m { s with addr := address }))
    ∧ (∃ wire m, encodeFrame address 0x21 [] = .ok wire ∧ Stored [] s.txbuf m
      ∧ exec (.cmdGetReaderInformation address) s
        = .next (sentCommand 0x21 [] wire m { s with addr := address }))
    ∧ (∀ c payload, buildRead s.params c = .ok payload → payload.length ≤ 251 →
      ∃ wire m, encodeFrame address 0x02 payload = .ok wire ∧ Stored payload s.txbuf m
        ∧ exec (.cmdReadData address c) s
          = .next (sentCommand 0x02 payload wire m { s with addr := address }))
    ∧ (∀ c payload, buildWrite s.params c = .ok payload → payload.length ≤ 251 →
      ∃ wire m, encodeFrame address 0x03 payload = .ok wire ∧ Stored payload s.txbuf m
        ∧ exec (.cmdWriteData address c) s
          = .next (sentCommand 0x03 payload wire m { s with addr := address }))
    ∧ (∀ c payload, buildKill c = .ok payload → payload.length ≤ 251 →
      ∃ wire m, encodeFrame address 0x05 payload = .ok wire ∧ Stored payload s.txbuf m
        ∧ exec (.cmdKillTag address c) s
          = .next (sentCommand 0x05 payload wire m { s with addr := address })))
  ∧ (∀ (s : State) (m : Moment) (rest : List Moment) (bytes : List Byte) (f : Frame), s.moments = m :: rest →
    HostFirst s m → m.host = some (.command bytes) → checkFrame bytes = .ok f →
    s.phase = .idle → m.chan = true → f.code ∈ [0x01, 0x02, 0x03, 0x05, 0x21] →
    ∃ tx, Stored f.body s.txbuf tx
      ∧ step s = .next (sentCommand f.code f.body bytes tx { arrived s m rest with addr := f.address }))

/-- R130, R188, R122 at the CMD rows (log 8, log 9): a record the builder rejects sends nothing; outside Idle the command
is refused as a whole; one whose payload is too long fails before a byte leaves, its first 251 bytes staged (R173); one the
channel does not take is staged and started, and nothing of it has left. At the step (log 19): an offered frame is refused
outside Idle, one whose code is outside the five fails at `XCHG.START` (R85), and bytes that are no frame give the caller
the error of `check_frame` (R150) and leave the block alone. -/
def Obligations.CommandNotSent : Prop :=
  (∀ (address : Byte) (c : ReadCommand) (e : Failure) (s : State), buildRead s.params c = .error e →
    exec (.cmdReadData address c) s = .next { s with result := some (.error e.cls e.cause none) })
  ∧ (∀ (address : Byte) (c : WriteCommand) (e : Failure) (s : State), buildWrite s.params c = .error e →
    exec (.cmdWriteData address c) s = .next { s with result := some (.error e.cls e.cause none) })
  ∧ (∀ (address : Byte) (c : KillCommand) (e : Failure) (s : State), buildKill c = .error e →
    exec (.cmdKillTag address c) s = .next { s with result := some (.error e.cls e.cause none) })
  ∧ (∀ (address : Byte) (s : State), s.phase ≠ .idle →
    exec (.cmdInventory address) s = .next { s with answer := some ⟨.refused, 0⟩ }
    ∧ exec (.cmdGetReaderInformation address) s = .next { s with answer := some ⟨.refused, 0⟩ }
    ∧ (∀ c payload, buildRead s.params c = .ok payload →
      exec (.cmdReadData address c) s = .next { s with answer := some ⟨.refused, 0⟩ })
    ∧ (∀ c payload, buildWrite s.params c = .ok payload →
      exec (.cmdWriteData address c) s = .next { s with answer := some ⟨.refused, 0⟩ })
    ∧ (∀ c payload, buildKill c = .ok payload →
      exec (.cmdKillTag address c) s = .next { s with answer := some ⟨.refused, 0⟩ }))
  ∧ (∀ (address : Byte) (s : State), s.phase = .idle →
    (∀ c payload, buildRead s.params c = .ok payload → 251 < payload.length → ∃ m,
      Stored (payload.take 251) s.txbuf m
      ∧ exec (.cmdReadData address c) s = .next (overflowedCommand 0x02 m { s with addr := address }))
    ∧ (∀ c payload, buildWrite s.params c = .ok payload → 251 < payload.length → ∃ m,
      Stored (payload.take 251) s.txbuf m
      ∧ exec (.cmdWriteData address c) s = .next (overflowedCommand 0x03 m { s with addr := address }))
    ∧ (∀ c payload, buildKill c = .ok payload → 251 < payload.length → ∃ m,
      Stored (payload.take 251) s.txbuf m
      ∧ exec (.cmdKillTag address c) s = .next (overflowedCommand 0x05 m { s with addr := address })))
  ∧ (∀ (address : Byte) (s : State), s.phase = .idle → s.chanReady = false →
    (∃ m, Stored [] s.txbuf m
      ∧ exec (.cmdInventory address) s = .next (startedCommand 0x01 [] m { s with addr := address }))
    ∧ (∃ m, Stored [] s.txbuf m
      ∧ exec (.cmdGetReaderInformation address) s = .next (startedCommand 0x21 [] m { s with addr := address }))
    ∧ (∀ c payload, buildRead s.params c = .ok payload → payload.length ≤ 251 → ∃ m, Stored payload s.txbuf m
      ∧ exec (.cmdReadData address c) s = .next (startedCommand 0x02 payload m { s with addr := address }))
    ∧ (∀ c payload, buildWrite s.params c = .ok payload → payload.length ≤ 251 → ∃ m, Stored payload s.txbuf m
      ∧ exec (.cmdWriteData address c) s = .next (startedCommand 0x03 payload m { s with addr := address }))
    ∧ (∀ c payload, buildKill c = .ok payload → payload.length ≤ 251 → ∃ m, Stored payload s.txbuf m
      ∧ exec (.cmdKillTag address c) s = .next (startedCommand 0x05 payload m { s with addr := address })))
  ∧ (∀ (s : State) (m : Moment) (rest : List Moment) (bytes : List Byte), s.moments = m :: rest →
    HostFirst s m → m.host = some (.command bytes) →
    (∀ f, checkFrame bytes = .ok f →
      (s.phase ≠ .idle → step s = .next { arrived s m rest with answer := some ⟨.refused, 0⟩ })
      ∧ (s.phase = .idle → f.code ∉ [0x01, 0x02, 0x03, 0x05, 0x21] →
        ∃ tx, Stored f.body s.txbuf tx
          ∧ step s = .next
            { arrived s m rest with
              addr := f.address, crc := 0xFFFF, txop := f.code, txlen := BitVec.ofNat 8 f.body.length
              txbuf := tx, txidx := 0, phase := .failed, resClass := .program, resCause := .illegalOperation
              resStatus := 0x00, answer := some ⟨.ok, 0⟩ }))
    ∧ (∀ e, checkFrame bytes = .error e → bytes.length ≠ 3 → bytes.length ≠ 4 →
      step s = .next { arrived s m rest with result := some (.error e.cls e.cause none) }))

/-- R176, R177, R179, R248 over the bytes of a response, for each RSP row (log 10), whatever the channel holds before them
and whatever the length byte says. In AwaitingLength, with the CRC seeded: where what the channel then holds begins with a
frame whose length byte counts the bytes that follow it, that frame is taken whole and judged as `decode_response` and
`classify` judge it, and the rest stays; where it is shorter than its first byte announces, all of it is taken and the block
waits for the rest. In AwaitingBody: what is missing is taken and VALIDATE follows, or, where that is not all there, what
there is. -/
def Obligations.ResponseTakenAndJudged : Prop :=
  ∀ (f : RspFrame) (s : State),
    ∀ i b, (i, b) ∈
        [(Instr.statusOk f, (0x00 : Byte)),
         (.statusReturnBeforeInventoryFinished f, s.params.returnBeforeInventoryFinished),
         (.statusScanTimeOverflow f, s.params.scanTimeOverflow), (.statusMoreData f, s.params.moreData),
         (.statusAccessPasswordError f, s.params.accessPasswordError),
         (.statusKillTagError f, s.params.killTagError),
         (.statusKillPasswordZero f, s.params.killPasswordZero),
         (.statusCommandNotSupported f, s.params.commandNotSupported),
         (.statusPoorCommunication f, s.params.poorCommunication), (.statusNoTags f, 0xFB),
         (.statusWrongLength f, s.params.wrongLength), (.statusIllegalCommand f, s.params.illegalCommand),
         (.statusParameterError f, s.params.parameterError), (.statusOther10 f, 0x10),
         (.statusOther11 f, 0x11), (.statusOther12 f, 0x12), (.statusOtherF9 f, 0xF9)]
        ∨ i = .statusUnknown b f →
      ∀ wire, wire = f.length :: f.address :: f.echo :: b :: f.rest →
      (s.phase = .awaitingLength → s.crc = crcSeed →
        (∀ frame more, Framed frame → s.rxStream ++ wire = frame ++ more →
          ∃ m, Stored frame s.rxbuf m
            ∧ exec i s = .next (judgedBy frame (takenResponse frame m { s with rxStream := more })))
        ∧ (∀ part, s.rxStream ++ wire = part → part.length ≤ (part.getD 0 0).toNat →
          ∃ m, Stored part s.rxbuf m ∧ exec i s = .next (begunResponse part m s)))
      ∧ (s.phase = .awaitingBody → s.rxcnt.toNat ≤ s.rxlen.toNat →
        (∀ bytes more, s.rxcnt.toNat + bytes.length = s.rxlen.toNat + 1 → s.rxStream ++ wire = bytes ++ more →
          ∃ m, StoredFrom s.rxcnt.toNat bytes s.rxbuf m
            ∧ exec i s = exec .validate (continuedResponse bytes more m s))
        ∧ (∀ bytes, s.rxcnt.toNat + bytes.length ≤ s.rxlen.toNat → s.rxStream ++ wire = bytes →
          ∃ m, StoredFrom s.rxcnt.toNat bytes s.rxbuf m
            ∧ exec i s = .next (continuedResponse bytes [] m s)))

/-- R77 (its column `class`), R162, R164, R86 at the RSP rows (log 10): where the trailer of the delivered frame is good,
the row's status decides how the exchange ends. -/
def Obligations.ResponseRowsEndAs : Prop :=
  ∀ (f : RspFrame) (s : State), s.phase = .awaitingLength → s.crc = crcSeed → s.rxStream = [] →
    s.params.wf = true → f.length.toNat = f.rest.length + 3 → 2 ≤ f.rest.length →
    ∀ (i : Instr) (b : Byte), encode s.params i = some (f.length :: f.address :: f.echo :: b :: f.rest) →
      trailerOk (f.length :: f.address :: f.echo :: b :: f.rest) = true →
      (i ∈ [.statusOk f, .statusReturnBeforeInventoryFinished f, .statusScanTimeOverflow f, .statusMoreData f] →
        ∃ t, exec i s = .next t ∧ t.phase = .success ∧ t.resStatus = b)
      ∧ (i = .statusNoTags f → s.txop = 0x01 →
        ∃ t, exec i s = .next t ∧ t.phase = .success ∧ t.resStatus = b)
      ∧ (i = .statusPoorCommunication f ∨ (i = .statusNoTags f ∧ s.txop ≠ 0x01) →
        ∃ t, exec i s = .next t ∧ t.phase = .failed ∧ t.resClass = .communication ∧ t.resCause = .status
          ∧ t.resStatus = b)
      ∧ (i ∈ [.statusAccessPasswordError f, .statusKillTagError f, .statusKillPasswordZero f,
          .statusCommandNotSupported f] →
        ∃ t, exec i s = .next t ∧ t.phase = .failed ∧ t.resClass = .protocol ∧ t.resCause = .status
          ∧ t.resStatus = b)
      ∧ (i ∈ [.statusWrongLength f, .statusIllegalCommand f, .statusParameterError f] →
        ∃ t, exec i s = .next t ∧ t.phase = .failed ∧ t.resClass = .program ∧ t.resCause = .status
          ∧ t.resStatus = b)
      ∧ (i ∈ [.statusOther10 f, .statusOther11 f, .statusOther12 f, .statusOtherF9 f] →
        b ∈ s.params.statusOther →
        ∃ t, exec i s = .next t ∧ t.phase = .failed ∧ t.resClass = .program ∧ t.resCause = .status
          ∧ t.resStatus = b)
      ∧ (i = .statusUnknown b f → statusDecode s.params b = none →
        ∃ t, exec i s = .next t ∧ t.phase = .failed ∧ t.resClass = .program ∧ t.resCause = .unknownStatus
          ∧ t.resStatus = b)

/-- R53 and R248: in a phase in which the block takes no byte, a delivered frame stays in the channel, behind the bytes
that are there, and nothing else changes; in Validating, VALIDATE then happens (R179; log 10). -/
def Obligations.ResponseNotAwaitedStays : Prop :=
  ∀ (i : Instr) (wire : List Byte) (s : State), i.format = .rsp → encode s.params i = some wire →
    (s.phase = .idle ∨ s.phase = .sending ∨ s.phase = .success ∨ s.phase = .failed →
      exec i s = .next { s with rxStream := s.rxStream ++ wire })
    ∧ (s.phase = .validating → exec i s = exec .validate { s with rxStream := s.rxStream ++ wire })

/-! ## Pseudo-operations (45_exchange_fsm.md R192 to R197; log 13) -/

/-- R192: `xchg op, payload` in Idle with a channel that takes the command and holds the response: the command leaves whole,
the response is taken whole, the result is `Ok` exactly when `decode_response` succeeds and the status is successful or is
NoTags answering Inventory, and the block is in Idle again. Bytes behind the response stay in the channel. -/
def Obligations.PseudoXchg : Prop :=
  ∀ (op : Byte) (payload frame more : List Byte) (s : State), s.phase = .idle → s.chanReady = true →
    op ∈ [0x01, 0x02, 0x03, 0x05, 0x21] → payload.length ≤ 251 → Framed frame →
    s.rxStream = frame ++ more →
    ∃ wire tx rx, encodeFrame s.addr op payload = .ok wire
      ∧ Stored payload s.txbuf tx ∧ Stored frame s.rxbuf rx
      ∧ exec (.pseudoXchg op payload) s
        = .next (endedExchange op wire frame more tx rx (exchangeResult .exchange s.params op frame) s)

/-- R193 to R197: each public operation is the exchange with its operation code and its builder's payload, and its own parser
on the status and payload received, or its error. That one step makes the whole exchange is the model's choice (log 13). -/
def Obligations.PublicOperations : Prop :=
  ∀ (frame more : List Byte) (s : State), s.phase = .idle → s.chanReady = true → Framed frame →
    s.rxStream = frame ++ more →
    (∃ wire tx rx, encodeFrame s.addr 0x21 [] = .ok wire ∧ Stored [] s.txbuf tx ∧ Stored frame s.rxbuf rx
      ∧ exec .readerInformation s = .next (endedExchange 0x21 wire frame more tx rx
          (exchangeResult
            (fun _ data => match parseReaderInformation data with
              | .ok r => .info r
              | .error e => .error e.cls e.cause none)
            s.params 0x21 frame) s))
    ∧ (∃ wire tx rx, encodeFrame s.addr 0x01 [] = .ok wire ∧ Stored [] s.txbuf tx ∧ Stored frame s.rxbuf rx
      ∧ exec .inventory s = .next (endedExchange 0x01 wire frame more tx rx
          (exchangeResult
            (fun status data => match parseInventory (statusDecode s.params status) data with
              | .ok tags => .tags tags
              | .error e => .error e.cls e.cause none)
            s.params 0x01 frame) s))
    ∧ (∀ c payload, buildRead s.params c = .ok payload → payload.length ≤ 251 →
      ∃ wire tx rx, encodeFrame s.addr 0x02 payload = .ok wire
        ∧ Stored payload s.txbuf tx ∧ Stored frame s.rxbuf rx
        ∧ exec (.readData c) s = .next (endedExchange 0x02 wire frame more tx rx
            (exchangeResult (fun _ data => .data data) s.params 0x02 frame) s))
    ∧ (∀ c payload, buildWrite s.params c = .ok payload → payload.length ≤ 251 →
      ∃ wire tx rx, encodeFrame s.addr 0x03 payload = .ok wire
        ∧ Stored payload s.txbuf tx ∧ Stored frame s.rxbuf rx
        ∧ exec (.writeData c) s = .next (endedExchange 0x03 wire frame more tx rx
            (exchangeResult (fun _ _ => .unit) s.params 0x03 frame) s))
    ∧ (∀ c payload, buildKill c = .ok payload → payload.length ≤ 251 →
      ∃ wire tx rx, encodeFrame s.addr 0x05 payload = .ok wire
        ∧ Stored payload s.txbuf tx ∧ Stored frame s.rxbuf rx
        ∧ exec (.kill c) s = .next (endedExchange 0x05 wire frame more tx rx
            (exchangeResult (fun _ _ => .unit) s.params 0x05 frame) s))

/-- R195 to R197 and R174 at the pseudo-operations: on a builder error no block operation is issued; an operation code
outside the five, or a payload too long, ends the exchange at once with its error and nothing is sent. -/
def Obligations.PseudoRejected : Prop :=
  (∀ (c : ReadCommand) (e : Failure) (s : State), buildRead s.params c = .error e →
    exec (.readData c) s = .next { s with result := some (.error e.cls e.cause none) })
  ∧ (∀ (c : WriteCommand) (e : Failure) (s : State), buildWrite s.params c = .error e →
    exec (.writeData c) s = .next { s with result := some (.error e.cls e.cause none) })
  ∧ (∀ (c : KillCommand) (e : Failure) (s : State), buildKill c = .error e →
    exec (.kill c) s = .next { s with result := some (.error e.cls e.cause none) })
  ∧ (∀ (op : Byte) (payload : List Byte) (s : State), s.phase = .idle →
    (op ∉ [0x01, 0x02, 0x03, 0x05, 0x21] ∨ 251 < payload.length) →
    ∃ tx, Stored (payload.take 251) s.txbuf tx ∧ exec (.pseudoXchg op payload) s = .next
      { s with
        crc := 0xFFFF, txop := op, txlen := 0, txbuf := tx, txidx := 0, phase := .idle
        resClass := .none, resCause := .none, resStatus := 0x00, answer := some ⟨.ok, 0⟩, task := none
        result := some (.error .program
          (if op ∈ [0x01, 0x02, 0x03, 0x05, 0x21] then .payloadTooLong else .illegalOperation) (some 0)) })

/-- R192 (`wait until`), at the level of steps (log 13): while the channel takes no byte the host of an `xchg` waits with the
command staged and started; a host that waits gets the result, and the block is in Idle again, at the first quiet step after
the exchange has ended. -/
def Obligations.WaitingHost : Prop :=
  (∀ (op : Byte) (payload : List Byte) (s : State), s.phase = .idle → s.chanReady = false →
    op ∈ [0x01, 0x02, 0x03, 0x05, 0x21] → payload.length ≤ 251 →
    ∃ m, Stored payload s.txbuf m
      ∧ exec (.pseudoXchg op payload) s
        = .next { startedCommand op payload m s with task := some .xchg })
  ∧ (∀ (task : Task) (s : State), Inv s → s.moments = [] → s.task = some task → s.phase = .success →
    step s = .next
      { s with
        crc := 0xFFFF, phase := .idle, txlen := 0, resClass := .none, resCause := .none, resStatus := 0x00
        answer := some ⟨.ok, 0⟩, task := none
        result := some
          (match task with
          | .xchg => .exchange s.resStatus ((s.rxbuf.span (s.rxlen.toNat - 1)).drop 4)
          | .readerInformation =>
            match parseReaderInformation ((s.rxbuf.span (s.rxlen.toNat - 1)).drop 4) with
            | .ok r => .info r
            | .error e => .error e.cls e.cause none
          | .inventory =>
            match parseInventory (statusDecode s.params s.resStatus)
                ((s.rxbuf.span (s.rxlen.toNat - 1)).drop 4) with
            | .ok tags => .tags tags
            | .error e => .error e.cls e.cause none
          | .readData => .data ((s.rxbuf.span (s.rxlen.toNat - 1)).drop 4)
          | .writeData => .unit
          | .kill => .unit) })
  ∧ (∀ (task : Task) (s : State), s.moments = [] → s.task = some task → s.phase = .failed →
    step s = .next
      { s with
        crc := 0xFFFF, phase := .idle, txlen := 0, resClass := .none, resCause := .none, resStatus := 0x00
        answer := some ⟨.ok, 0⟩, task := none
        result := some (.error s.resClass s.resCause (some s.resStatus)) })

/-! ## Payload parsers (45_exchange_fsm.md) -/

/-- R189: what `parse_inventory` makes of every payload: nothing for NoTags; an error for an empty payload; the tags of a
payload that announces and holds them, whatever follows; an error where a record is missing or overruns the payload. -/
def Obligations.ParseInventory : Prop :=
  (∀ payload, parseInventory (some (.named .noTags)) payload = .ok [])
  ∧ (∀ st, st ≠ some (.named .noTags) →
    parseInventory st [] = .error ⟨.program, .badPayload⟩
    ∧ ∀ (count : Byte) (tags : List (List Byte)), (∀ tag ∈ tags, tag.length ≤ 255) →
      (∀ more : List Byte, tags.length = count.toNat →
        parseInventory st
          (count :: ((tags.map fun tag => BitVec.ofNat 8 tag.length :: tag).flatten ++ more)) = .ok tags)
      ∧ (tags.length < count.toNat →
        parseInventory st (count :: (tags.map fun tag => BitVec.ofNat 8 tag.length :: tag).flatten)
          = .error ⟨.program, .badPayload⟩)
      ∧ (∀ (l : Byte) (short : List Byte), tags.length < count.toNat → short.length < l.toNat →
        parseInventory st
          (count :: ((tags.map fun tag => BitVec.ofNat 8 tag.length :: tag).flatten ++ l :: short))
          = .error ⟨.program, .badPayload⟩))
  ∧ parseInventory (some (.named .ok)) [2, 4, 0xAA, 0xBB, 0xCC, 0xDD, 2, 0x11, 0x22, 0x33, 0x44]
    = .ok [[0xAA, 0xBB, 0xCC, 0xDD], [0x11, 0x22]]

/-- R190 and R191: the reader-information record and the raw payload of a read. -/
def Obligations.ParseRecords : Prop :=
  (∀ payload : List Byte, payload.length ≠ 8 →
    parseReaderInformation payload = .error ⟨.program, .badPayload⟩)
  ∧ (∀ v₀ v₁ ty pr mx mn pw sc : Byte,
    parseReaderInformation [v₀, v₁, ty, pr, mx, mn, pw, sc]
      = .ok ⟨[v₀, v₁], ty, pr, mx, mn, pw, sc⟩)
  ∧ (∀ payload : List Byte, parseReadData payload = payload)

/-! ## Encodings (30_encoding.md) -/

/-- R71, R72, R74, R76, R77, R79: for every well-formed instruction that has a bit pattern, with every operand at every value
its encoding admits, decoding its bytes gives it back. A password of four zero bytes is spelled as an absent one (log 12). -/
def Obligations.DecodeOfEncode : Prop :=
  ∀ (p : Params) (i : Instr), p.wf = true → i.wf p = true →
    (i.format = .cmd ∨ i.format = .rsp ∨ i.format = .host) →
    ∃ bytes, encode p i = some bytes ∧ decode p i.format bytes = .ok i

/-- R74 and R79: a host word is an operation exactly when its selector is one of the fifteen; the word an operation encodes
to has the selector of every word that decodes to it, and the operand too where the operation has one. -/
def Obligations.HostWords : Prop :=
  ∀ w : Word,
    ((∃ i, decodeHost w = .ok i) ↔
      hi8 w ∈ [0x01, 0x02, 0x03, 0x10, 0x11, 0x12, 0x13, 0x14, 0x20, 0x21, 0x22, 0x23, 0x24, 0x25, 0x26])
    ∧ ∀ i, decodeHost w = .ok i →
      i.format = .host
      ∧ ∃ w', encodeHost i = some w' ∧ hi8 w' = hi8 w
        ∧ lo8 w' = if hi8 w ∈ [0x02, 0x10, 0x12, 0x13, 0x26] then lo8 w else 0

/-- A few words written out from the encodings of R71, R72, R74, with the instructions they stand for. -/
def Obligations.DecodedWords : Prop :=
  decodeTableWord 16 0x0261 = some (.crcUpdate 0x61)
  ∧ decodeTableWord 16 0x03A5 = some .crcRead
  ∧ decodeTableWord 16 0x1305 = some (.xchgStart 0x05)
  ∧ decodeTableWord 16 0x2604 = some (.rdRsp 4)
  ∧ decodeTableWord 16 0x1500 = none
  ∧ decode Params.defaults .cmd [0x04, 0x0A, 0x01, 0xAB, 0xB6] = .ok (.cmdInventory 0x0A)
  ∧ decode Params.defaults .rsp [0x05, 0x00, 0x01, 0xFB, 0xF2, 0x3D]
    = .ok (.statusNoTags ⟨5, 0, 1, [0xF2, 0x3D]⟩)

/-! ## The step (60_exceptions.md R217; log 6, log 7) -/

/-- R20, R74: a step runs the instruction that what is offered decodes to: a host word, a command frame or a response frame of
the present moment, when nothing goes before it; it runs on the state in which the moment has been entered (log 6). -/
def Obligations.StepRunsDecoded : Prop :=
  ∀ (s : State) (m : Moment) (rest : List Moment) (i : Instr), s.moments = m :: rest →
    (HostFirst s m →
      ((∃ w, m.host = some (.word w) ∧ decodeHost w = .ok i)
        ∨ (∃ bytes, m.host = some (.command bytes) ∧ decode s.params .cmd bytes = .ok i)
        ∨ (∃ q, m.host = some (.pseudo q) ∧ pseudoInstr q = i)) →
      step s = exec i (arrived s m rest))
    ∧ (∀ bytes, m.rst = false → m.ioErr = false → m.frame = some bytes → m.host = none →
      decode s.params .rsp bytes = .ok i →
      step s = exec i (arrived s m rest))

/-- The words of the opcode table at the ports (log 7, log 11): with a table word placed as the next offer to an idle block
that has the default arguments, the step runs the instruction the decoder reads from it. -/
def Obligations.StepRunsTableWord : Prop :=
  ∀ (s : State) (nbits w : Nat) (i : Instr), s.params = Params.defaults → s.phase = .idle →
    decodeTableWord nbits w = some i →
    step (s.withFetchWord nbits w) = exec i { s with chanReady := true }

/-- R217: of what is offered at one moment, reset goes first, then the channel's error, then its byte, then VALIDATE, then the
host; the event runs on the state in which the moment has been entered and what is left of its offer stands in front again,
so that a host operation that loses waits (log 6). -/
def Obligations.Precedence : Prop :=
  ∀ s : State,
    ((presentMoment s).rst = true → nextAction s = .run .reset (keepOffer (presentMoment s) (enterMoment s)))
    ∧ ((presentMoment s).rst = false → (presentMoment s).ioErr = true →
      nextAction s = .run .chIoerr (keepOffer (presentMoment s) (enterMoment s)))
    ∧ ((presentMoment s).rst = false → (presentMoment s).ioErr = false → (presentMoment s).frame = none →
      ((presentMoment s).chan = true → s.phase = .sending →
        nextAction s = .run .chTxbyte (keepOffer (presentMoment s) (enterMoment s)))
      ∧ (∀ b bytes, (presentMoment s).chan = true → s.phase = .awaitingLength →
        s.rxStream ++ (presentMoment s).bytes = b :: bytes →
        nextAction s = .run (.chRxbyteLength b)
          { keepOffer (presentMoment s) (enterMoment s) with rxStream := bytes })
      ∧ (∀ b bytes, (presentMoment s).chan = true → s.phase = .awaitingBody →
        s.rxStream ++ (presentMoment s).bytes = b :: bytes →
        nextAction s = .run (.chRxbyteBody b)
          { keepOffer (presentMoment s) (enterMoment s) with rxStream := bytes })
      ∧ ((presentMoment s).internal = true → s.phase = .validating →
        nextAction s = .run .validate (keepOffer (presentMoment s) (enterMoment s))))
    ∧ (∀ m rest offer, s.moments = m :: rest → m.host = some offer →
      enterMoment s = arrived s m rest
      ∧ ∃ m', keepOffer m (arrived s m rest) = { arrived s m rest with moments := m' :: rest }
        ∧ m'.host = some offer ∧ m'.frame = m.frame ∧ m'.rst = false ∧ m'.ioErr = false ∧ m'.bytes = [])

/-- R251: with nothing offered and nothing in the channel, a block that awaits a response stays where it is; so does one that
is sending to a channel that takes no byte. -/
def Obligations.WaitsForEver : Prop :=
  ∀ s : State, s.moments = [] →
    ((s.phase = .awaitingLength ∨ s.phase = .awaitingBody) → s.rxStream = [] → step s = .next s)
    ∧ (s.phase = .sending → s.chanReady = false → step s = .next s)

/-! ## The invariant (10_state.md R40) -/

/-- R40 (a) to (g): the invariant holds after reset. -/
def Obligations.InvAtReset : Prop := Inv State.reset

/-- R40 (a) to (g): every step keeps the invariant. -/
def Obligations.StepKeepsInv : Prop := ∀ s t : State, Inv s → step s = .next t → Inv t

/-- R218, R223, R188 as the model has them: in a state of the invariant every instruction and every step answers a next
state, whatever is offered; none changes the arguments of the model (log 1). -/
def Obligations.NoStop : Prop :=
  (∀ (i : Instr) (s : State), Inv s → ∃ t, exec i s = .next t ∧ t.params = s.params)
  ∧ (∀ s : State, Inv s → ∃ t, step s = .next t ∧ t.params = s.params)
end

