-- ==== Sys2Proof/Laws/Crc.lean ====
section
/-! SUPPORT. Small laws of the CRC functions and of the halves of a 16-bit value. -/

namespace Sys2Proof

@[simp] theorem crcFrom_nil (c : Word) : crcFrom c [] = c := rfl

@[simp] theorem crcFrom_cons (c : Word) (b : Byte) (m : List Byte) :
    crcFrom c (b :: m) = crcFrom (crcByte c b) m := rfl

theorem crc_concat (m : List Byte) (b : Byte) : crc (m ++ [b]) = crcByte (crc m) b := by
  simp [crc, crcFrom]

@[simp] theorem lo8_le16 (a b : Byte) : lo8 (le16 a b) = a := by
  simp only [lo8, le16, BitVec.extractLsb'_append_eq_right]

@[simp] theorem hi8_le16 (a b : Byte) : hi8 (le16 a b) = b := by
  simp only [hi8, le16, BitVec.extractLsb'_append_eq_left]

theorem le16_lo8_hi8 (v : Word) : le16 (lo8 v) (hi8 v) = v := by
  apply BitVec.eq_of_getLsbD_eq
  intro i hi
  simp only [le16, lo8, hi8, BitVec.getLsbD_append, BitVec.getLsbD_extractLsb']
  by_cases h : i < 8
  · simp [h]
  · simp [h, show i - 8 < 8 by omega, show 8 + (i - 8) = i by omega]

end Sys2Proof
end

