-- ==== Sys2Proof/Laws/Memory.lean ====
section
/-! SUPPORT. The laws of the buffers: what a read after a write gives, that a write keeps the canonical
form, what `span` holds, and what `memRead` and `memWrite` can answer. -/

namespace Sys2Proof.Machine

@[simp] theorem Memory.read_nil (i : Nat) : Memory.read [] i = none := rfl

theorem Memory.read_write_same (m : Memory) (i : Nat) (v : Byte) : (m.write i v).read i = some v := by
  induction m with
  | nil => simp [Memory.write, Memory.read]
  | cons c m ih =>
    obtain ⟨a, b⟩ := c
    simp only [Memory.write]
    split
    · simp [Memory.read]
    · split
      · simp [Memory.read]
      · next h => simp [Memory.read, ih, Ne.symm h]

theorem Memory.read_write_other (m : Memory) {i j : Nat} (v : Byte) (h : j ≠ i) :
    (m.write i v).read j = m.read j := by
  induction m with
  | nil => simp [Memory.write, Memory.read, Ne.symm h]
  | cons c m ih =>
    obtain ⟨a, b⟩ := c
    simp only [Memory.write]
    split
    · simp [Memory.read, Ne.symm h]
    · split
      · next h' => subst h'; simp [Memory.read, Ne.symm h]
      · simp [Memory.read, ih]

/-- A read after a write. -/
theorem Memory.read_write (m : Memory) (i j : Nat) (v : Byte) :
    (m.write i v).read j = if j = i then some v else m.read j := by
  split
  · next h => rw [h, Memory.read_write_same]
  · next h => exact Memory.read_write_other m v h

theorem Memory.wf_cons (a : Nat) (b : Byte) (m : Memory) :
    Memory.wf ((a, b) :: m) = true ↔ (∀ c ∈ m.head?, a < c.1) ∧ m.wf = true := by
  cases m with
  | nil => simp [Memory.wf]
  | cons c m => obtain ⟨a', b'⟩ := c; simp [Memory.wf]

theorem Memory.head_write (m : Memory) (i : Nat) (v : Byte) :
    ∃ w rest, m.write i v = (match m.head? with | some c => min i c.1 | none => i, w) :: rest := by
  cases m with
  | nil => exact ⟨v, [], rfl⟩
  | cons c m =>
    obtain ⟨a, b⟩ := c
    simp only [Memory.write]
    split
    · next h => exact ⟨v, (a, b) :: m, by simp [Nat.min_eq_left (Nat.le_of_lt h)]⟩
    · split
      · next h => exact ⟨v, m, by simp [h]⟩
      · next h h' => exact ⟨b, Memory.write m i v, by simp [Nat.min_eq_right (Nat.le_of_not_lt h)]⟩

/-- Every write keeps the canonical form. -/
theorem Memory.wf_write (m : Memory) (i : Nat) (v : Byte) (h : m.wf = true) : (m.write i v).wf = true := by
  induction m with
  | nil => rfl
  | cons c m ih =>
    obtain ⟨a, b⟩ := c
    obtain ⟨hhead, htail⟩ := (Memory.wf_cons a b m).1 h
    simp only [Memory.write]
    split
    · next hlt => exact (Memory.wf_cons i v _).2 ⟨by simpa using hlt, h⟩
    · split
      · next heq => subst heq; exact (Memory.wf_cons i v m).2 ⟨hhead, htail⟩
      · next hlt hne =>
        refine (Memory.wf_cons a b _).2 ⟨?_, ih htail⟩
        obtain ⟨w, rest, hw⟩ := Memory.head_write m i v
        rw [hw]
        have hai : a < i := by omega
        cases hm : m.head? with
        | none => simp [hai]
        | some c =>
          have := hhead c (by simp [hm])
          simp only [List.head?_cons, Option.mem_def, Option.some.injEq, forall_eq']
          omega

@[simp] theorem Memory.length_span (m : Memory) (n : Nat) : (m.span n).length = n := by
  simp [Memory.span]

@[simp] theorem Memory.span_zero (m : Memory) : m.span 0 = [] := rfl

theorem Memory.span_succ (m : Memory) (n : Nat) :
    m.span (n + 1) = m.span n ++ [(m.read n).getD 0] := by
  simp [Memory.span, List.range_succ]

/-- A write at or past the end of a span leaves the span. -/
theorem Memory.span_write (m : Memory) (n i : Nat) (v : Byte) (h : n ≤ i) :
    (m.write i v).span n = m.span n := by
  simp only [Memory.span]
  refine List.map_congr_left fun j hj => ?_
  have : j < n := by simpa using hj
  rw [Memory.read_write_other m v (by omega)]

theorem Memory.getElem_span (m : Memory) (n i : Nat) (h : i < (m.span n).length) :
    (m.span n)[i] = (m.read i).getD 0 := by
  simp [Memory.span]

theorem Memory.getD_span (m : Memory) (n i : Nat) (h : i < n) :
    (m.span n).getD i 0 = (m.read i).getD 0 := by
  simp [Memory.span, h]

/-- What `memRead` answers where the byte has been written. -/
theorem memRead_of_written (sp : Space) (i : Nat) (s : State) (b : Byte) (hi : i < sp.size)
    (hb : (s.buffer sp).read i = some b) : memRead sp i s = .ok b := by
  simp [memRead, hi, hb]

/-- All that `memRead` can answer: the byte written there, or the fault of a byte nothing has written, or
of an index outside the buffer. -/
theorem memRead_cases (sp : Space) (i : Nat) (s : State) :
    (∃ b, i < sp.size ∧ (s.buffer sp).read i = some b ∧ memRead sp i s = .ok b)
    ∨ (i < sp.size ∧ (s.buffer sp).read i = none ∧ memRead sp i s = .error .unwrittenByte)
    ∨ (sp.size ≤ i ∧ memRead sp i s = .error .outsideBuffer) := by
  unfold memRead
  by_cases hi : i < sp.size
  · cases hb : (s.buffer sp).read i with
    | none => exact .inr (.inl ⟨hi, rfl, by simp [hi]⟩)
    | some b => exact .inl ⟨b, hi, rfl, by simp [hi]⟩
  · exact .inr (.inr ⟨Nat.le_of_not_lt hi, by simp [hi]⟩)

theorem memWrite_txbuf (i : Nat) (v : Byte) (s : State) (h : i < 251) :
    memWrite .txbuf i v s = .ok { s with txbuf := s.txbuf.write i v } := by
  simp [memWrite, Space.size, h]

theorem memWrite_rxbuf (i : Nat) (v : Byte) (s : State) (h : i < 256) :
    memWrite .rxbuf i v s = .ok { s with rxbuf := s.rxbuf.write i v } := by
  simp [memWrite, Space.size, h]

/-- All that `memWrite` can answer on success: one byte of the one buffer is written, nothing else changes. -/
theorem memWrite_ok (sp : Space) (i : Nat) (v : Byte) (s t : State) (h : memWrite sp i v s = .ok t) :
    i < sp.size ∧
      t = match sp with
        | .txbuf => { s with txbuf := s.txbuf.write i v }
        | .rxbuf => { s with rxbuf := s.rxbuf.write i v } := by
  unfold memWrite at h
  split at h
  · next hi =>
    refine ⟨hi, ?_⟩
    cases sp <;> simpa using h.symm
  · cases h

end Sys2Proof.Machine
end

