-- ==== Sys2Proof/Laws/State.lean ====
section
/-! SUPPORT. What each named update of the state does to each field: one lemma per field and update. -/

namespace Sys2Proof.Machine

/-! ## respond -/

@[simp] theorem respond_crc (rcode : RCode) (data : Word) (s : State) : (respond rcode data s).crc = s.crc := rfl
@[simp] theorem respond_addr (rcode : RCode) (data : Word) (s : State) : (respond rcode data s).addr = s.addr := rfl
@[simp] theorem respond_phase (rcode : RCode) (data : Word) (s : State) : (respond rcode data s).phase = s.phase := rfl
@[simp] theorem respond_txop (rcode : RCode) (data : Word) (s : State) : (respond rcode data s).txop = s.txop := rfl
@[simp] theorem respond_txlen (rcode : RCode) (data : Word) (s : State) : (respond rcode data s).txlen = s.txlen := rfl
@[simp] theorem respond_txbuf (rcode : RCode) (data : Word) (s : State) : (respond rcode data s).txbuf = s.txbuf := rfl
@[simp] theorem respond_txidx (rcode : RCode) (data : Word) (s : State) : (respond rcode data s).txidx = s.txidx := rfl
@[simp] theorem respond_rxlen (rcode : RCode) (data : Word) (s : State) : (respond rcode data s).rxlen = s.rxlen := rfl
@[simp] theorem respond_rxcnt (rcode : RCode) (data : Word) (s : State) : (respond rcode data s).rxcnt = s.rxcnt := rfl
@[simp] theorem respond_rxbuf (rcode : RCode) (data : Word) (s : State) : (respond rcode data s).rxbuf = s.rxbuf := rfl
@[simp] theorem respond_resClass (rcode : RCode) (data : Word) (s : State) : (respond rcode data s).resClass = s.resClass := rfl
@[simp] theorem respond_resCause (rcode : RCode) (data : Word) (s : State) : (respond rcode data s).resCause = s.resCause := rfl
@[simp] theorem respond_resStatus (rcode : RCode) (data : Word) (s : State) : (respond rcode data s).resStatus = s.resStatus := rfl
@[simp] theorem respond_txStream (rcode : RCode) (data : Word) (s : State) : (respond rcode data s).txStream = s.txStream := rfl
@[simp] theorem respond_rxStream (rcode : RCode) (data : Word) (s : State) : (respond rcode data s).rxStream = s.rxStream := rfl
@[simp] theorem respond_params (rcode : RCode) (data : Word) (s : State) : (respond rcode data s).params = s.params := rfl
@[simp] theorem respond_answer (rcode : RCode) (data : Word) (s : State) : (respond rcode data s).answer = some ⟨rcode, data⟩ := rfl
@[simp] theorem respond_chanReady (rcode : RCode) (data : Word) (s : State) : (respond rcode data s).chanReady = s.chanReady := rfl
@[simp] theorem respond_moments (rcode : RCode) (data : Word) (s : State) : (respond rcode data s).moments = s.moments := rfl
@[simp] theorem respond_task (rcode : RCode) (data : Word) (s : State) : (respond rcode data s).task = s.task := rfl
@[simp] theorem respond_result (rcode : RCode) (data : Word) (s : State) : (respond rcode data s).result = s.result := rfl

/-! ## raiseFail -/

@[simp] theorem raiseFail_crc (cls : ResClass) (cause : Cause) (s : State) : (raiseFail cls cause s).crc = s.crc := rfl
@[simp] theorem raiseFail_addr (cls : ResClass) (cause : Cause) (s : State) : (raiseFail cls cause s).addr = s.addr := rfl
@[simp] theorem raiseFail_phase (cls : ResClass) (cause : Cause) (s : State) : (raiseFail cls cause s).phase = .failed := rfl
@[simp] theorem raiseFail_txop (cls : ResClass) (cause : Cause) (s : State) : (raiseFail cls cause s).txop = s.txop := rfl
@[simp] theorem raiseFail_txlen (cls : ResClass) (cause : Cause) (s : State) : (raiseFail cls cause s).txlen = s.txlen := rfl
@[simp] theorem raiseFail_txbuf (cls : ResClass) (cause : Cause) (s : State) : (raiseFail cls cause s).txbuf = s.txbuf := rfl
@[simp] theorem raiseFail_txidx (cls : ResClass) (cause : Cause) (s : State) : (raiseFail cls cause s).txidx = s.txidx := rfl
@[simp] theorem raiseFail_rxlen (cls : ResClass) (cause : Cause) (s : State) : (raiseFail cls cause s).rxlen = s.rxlen := rfl
@[simp] theorem raiseFail_rxcnt (cls : ResClass) (cause : Cause) (s : State) : (raiseFail cls cause s).rxcnt = s.rxcnt := rfl
@[simp] theorem raiseFail_rxbuf (cls : ResClass) (cause : Cause) (s : State) : (raiseFail cls cause s).rxbuf = s.rxbuf := rfl
@[simp] theorem raiseFail_resClass (cls : ResClass) (cause : Cause) (s : State) : (raiseFail cls cause s).resClass = cls := rfl
@[simp] theorem raiseFail_resCause (cls : ResClass) (cause : Cause) (s : State) : (raiseFail cls cause s).resCause = cause := rfl
@[simp] theorem raiseFail_resStatus (cls : ResClass) (cause : Cause) (s : State) : (raiseFail cls cause s).resStatus = s.resStatus := rfl
@[simp] theorem raiseFail_txStream (cls : ResClass) (cause : Cause) (s : State) : (raiseFail cls cause s).txStream = s.txStream := rfl
@[simp] theorem raiseFail_rxStream (cls : ResClass) (cause : Cause) (s : State) : (raiseFail cls cause s).rxStream = s.rxStream := rfl
@[simp] theorem raiseFail_params (cls : ResClass) (cause : Cause) (s : State) : (raiseFail cls cause s).params = s.params := rfl
@[simp] theorem raiseFail_answer (cls : ResClass) (cause : Cause) (s : State) : (raiseFail cls cause s).answer = s.answer := rfl
@[simp] theorem raiseFail_chanReady (cls : ResClass) (cause : Cause) (s : State) : (raiseFail cls cause s).chanReady = s.chanReady := rfl
@[simp] theorem raiseFail_moments (cls : ResClass) (cause : Cause) (s : State) : (raiseFail cls cause s).moments = s.moments := rfl
@[simp] theorem raiseFail_task (cls : ResClass) (cause : Cause) (s : State) : (raiseFail cls cause s).task = s.task := rfl
@[simp] theorem raiseFail_result (cls : ResClass) (cause : Cause) (s : State) : (raiseFail cls cause s).result = s.result := rfl

/-! ## clearResult -/

@[simp] theorem clearResult_crc (s : State) : (clearResult s).crc = s.crc := rfl
@[simp] theorem clearResult_addr (s : State) : (clearResult s).addr = s.addr := rfl
@[simp] theorem clearResult_phase (s : State) : (clearResult s).phase = s.phase := rfl
@[simp] theorem clearResult_txop (s : State) : (clearResult s).txop = s.txop := rfl
@[simp] theorem clearResult_txlen (s : State) : (clearResult s).txlen = s.txlen := rfl
@[simp] theorem clearResult_txbuf (s : State) : (clearResult s).txbuf = s.txbuf := rfl
@[simp] theorem clearResult_txidx (s : State) : (clearResult s).txidx = s.txidx := rfl
@[simp] theorem clearResult_rxlen (s : State) : (clearResult s).rxlen = s.rxlen := rfl
@[simp] theorem clearResult_rxcnt (s : State) : (clearResult s).rxcnt = s.rxcnt := rfl
@[simp] theorem clearResult_rxbuf (s : State) : (clearResult s).rxbuf = s.rxbuf := rfl
@[simp] theorem clearResult_resClass (s : State) : (clearResult s).resClass = .none := rfl
@[simp] theorem clearResult_resCause (s : State) : (clearResult s).resCause = .none := rfl
@[simp] theorem clearResult_resStatus (s : State) : (clearResult s).resStatus = 0 := rfl
@[simp] theorem clearResult_txStream (s : State) : (clearResult s).txStream = s.txStream := rfl
@[simp] theorem clearResult_rxStream (s : State) : (clearResult s).rxStream = s.rxStream := rfl
@[simp] theorem clearResult_params (s : State) : (clearResult s).params = s.params := rfl
@[simp] theorem clearResult_answer (s : State) : (clearResult s).answer = s.answer := rfl
@[simp] theorem clearResult_chanReady (s : State) : (clearResult s).chanReady = s.chanReady := rfl
@[simp] theorem clearResult_moments (s : State) : (clearResult s).moments = s.moments := rfl
@[simp] theorem clearResult_task (s : State) : (clearResult s).task = s.task := rfl
@[simp] theorem clearResult_result (s : State) : (clearResult s).result = s.result := rfl

/-! ## acknowledge -/

@[simp] theorem acknowledge_crc (s : State) : (acknowledge s).crc = crcSeed := rfl
@[simp] theorem acknowledge_addr (s : State) : (acknowledge s).addr = s.addr := rfl
@[simp] theorem acknowledge_phase (s : State) : (acknowledge s).phase = .idle := rfl
@[simp] theorem acknowledge_txop (s : State) : (acknowledge s).txop = s.txop := rfl
@[simp] theorem acknowledge_txlen (s : State) : (acknowledge s).txlen = 0 := rfl
@[simp] theorem acknowledge_txbuf (s : State) : (acknowledge s).txbuf = s.txbuf := rfl
@[simp] theorem acknowledge_txidx (s : State) : (acknowledge s).txidx = s.txidx := rfl
@[simp] theorem acknowledge_rxlen (s : State) : (acknowledge s).rxlen = s.rxlen := rfl
@[simp] theorem acknowledge_rxcnt (s : State) : (acknowledge s).rxcnt = s.rxcnt := rfl
@[simp] theorem acknowledge_rxbuf (s : State) : (acknowledge s).rxbuf = s.rxbuf := rfl
@[simp] theorem acknowledge_resClass (s : State) : (acknowledge s).resClass = .none := rfl
@[simp] theorem acknowledge_resCause (s : State) : (acknowledge s).resCause = .none := rfl
@[simp] theorem acknowledge_resStatus (s : State) : (acknowledge s).resStatus = 0 := rfl
@[simp] theorem acknowledge_txStream (s : State) : (acknowledge s).txStream = s.txStream := rfl
@[simp] theorem acknowledge_rxStream (s : State) : (acknowledge s).rxStream = s.rxStream := rfl
@[simp] theorem acknowledge_params (s : State) : (acknowledge s).params = s.params := rfl
@[simp] theorem acknowledge_answer (s : State) : (acknowledge s).answer = s.answer := rfl
@[simp] theorem acknowledge_chanReady (s : State) : (acknowledge s).chanReady = s.chanReady := rfl
@[simp] theorem acknowledge_moments (s : State) : (acknowledge s).moments = s.moments := rfl
@[simp] theorem acknowledge_task (s : State) : (acknowledge s).task = s.task := rfl
@[simp] theorem acknowledge_result (s : State) : (acknowledge s).result = s.result := rfl

/-! ## emit -/

@[simp] theorem emit_crc (b : Byte) (s : State) : (emit b s).crc = s.crc := rfl
@[simp] theorem emit_addr (b : Byte) (s : State) : (emit b s).addr = s.addr := rfl
@[simp] theorem emit_phase (b : Byte) (s : State) : (emit b s).phase = s.phase := rfl
@[simp] theorem emit_txop (b : Byte) (s : State) : (emit b s).txop = s.txop := rfl
@[simp] theorem emit_txlen (b : Byte) (s : State) : (emit b s).txlen = s.txlen := rfl
@[simp] theorem emit_txbuf (b : Byte) (s : State) : (emit b s).txbuf = s.txbuf := rfl
@[simp] theorem emit_txidx (b : Byte) (s : State) : (emit b s).txidx = s.txidx := rfl
@[simp] theorem emit_rxlen (b : Byte) (s : State) : (emit b s).rxlen = s.rxlen := rfl
@[simp] theorem emit_rxcnt (b : Byte) (s : State) : (emit b s).rxcnt = s.rxcnt := rfl
@[simp] theorem emit_rxbuf (b : Byte) (s : State) : (emit b s).rxbuf = s.rxbuf := rfl
@[simp] theorem emit_resClass (b : Byte) (s : State) : (emit b s).resClass = s.resClass := rfl
@[simp] theorem emit_resCause (b : Byte) (s : State) : (emit b s).resCause = s.resCause := rfl
@[simp] theorem emit_resStatus (b : Byte) (s : State) : (emit b s).resStatus = s.resStatus := rfl
@[simp] theorem emit_txStream (b : Byte) (s : State) : (emit b s).txStream = s.txStream ++ [b] := rfl
@[simp] theorem emit_rxStream (b : Byte) (s : State) : (emit b s).rxStream = s.rxStream := rfl
@[simp] theorem emit_params (b : Byte) (s : State) : (emit b s).params = s.params := rfl
@[simp] theorem emit_answer (b : Byte) (s : State) : (emit b s).answer = s.answer := rfl
@[simp] theorem emit_chanReady (b : Byte) (s : State) : (emit b s).chanReady = s.chanReady := rfl
@[simp] theorem emit_moments (b : Byte) (s : State) : (emit b s).moments = s.moments := rfl
@[simp] theorem emit_task (b : Byte) (s : State) : (emit b s).task = s.task := rfl
@[simp] theorem emit_result (b : Byte) (s : State) : (emit b s).result = s.result := rfl

/-! ## leaveInChannel -/

@[simp] theorem leaveInChannel_crc (b : Byte) (s : State) : (leaveInChannel b s).crc = s.crc := rfl
@[simp] theorem leaveInChannel_addr (b : Byte) (s : State) : (leaveInChannel b s).addr = s.addr := rfl
@[simp] theorem leaveInChannel_phase (b : Byte) (s : State) : (leaveInChannel b s).phase = s.phase := rfl
@[simp] theorem leaveInChannel_txop (b : Byte) (s : State) : (leaveInChannel b s).txop = s.txop := rfl
@[simp] theorem leaveInChannel_txlen (b : Byte) (s : State) : (leaveInChannel b s).txlen = s.txlen := rfl
@[simp] theorem leaveInChannel_txbuf (b : Byte) (s : State) : (leaveInChannel b s).txbuf = s.txbuf := rfl
@[simp] theorem leaveInChannel_txidx (b : Byte) (s : State) : (leaveInChannel b s).txidx = s.txidx := rfl
@[simp] theorem leaveInChannel_rxlen (b : Byte) (s : State) : (leaveInChannel b s).rxlen = s.rxlen := rfl
@[simp] theorem leaveInChannel_rxcnt (b : Byte) (s : State) : (leaveInChannel b s).rxcnt = s.rxcnt := rfl
@[simp] theorem leaveInChannel_rxbuf (b : Byte) (s : State) : (leaveInChannel b s).rxbuf = s.rxbuf := rfl
@[simp] theorem leaveInChannel_resClass (b : Byte) (s : State) : (leaveInChannel b s).resClass = s.resClass := rfl
@[simp] theorem leaveInChannel_resCause (b : Byte) (s : State) : (leaveInChannel b s).resCause = s.resCause := rfl
@[simp] theorem leaveInChannel_resStatus (b : Byte) (s : State) : (leaveInChannel b s).resStatus = s.resStatus := rfl
@[simp] theorem leaveInChannel_txStream (b : Byte) (s : State) : (leaveInChannel b s).txStream = s.txStream := rfl
@[simp] theorem leaveInChannel_rxStream (b : Byte) (s : State) : (leaveInChannel b s).rxStream = b :: s.rxStream := rfl
@[simp] theorem leaveInChannel_params (b : Byte) (s : State) : (leaveInChannel b s).params = s.params := rfl
@[simp] theorem leaveInChannel_answer (b : Byte) (s : State) : (leaveInChannel b s).answer = s.answer := rfl
@[simp] theorem leaveInChannel_chanReady (b : Byte) (s : State) : (leaveInChannel b s).chanReady = s.chanReady := rfl
@[simp] theorem leaveInChannel_moments (b : Byte) (s : State) : (leaveInChannel b s).moments = s.moments := rfl
@[simp] theorem leaveInChannel_task (b : Byte) (s : State) : (leaveInChannel b s).task = s.task := rfl
@[simp] theorem leaveInChannel_result (b : Byte) (s : State) : (leaveInChannel b s).result = s.result := rfl

/-! ## resetBlock -/

@[simp] theorem resetBlock_crc (s : State) : (resetBlock s).crc = 0xFFFF := rfl
@[simp] theorem resetBlock_addr (s : State) : (resetBlock s).addr = 0 := rfl
@[simp] theorem resetBlock_phase (s : State) : (resetBlock s).phase = .idle := rfl
@[simp] theorem resetBlock_txop (s : State) : (resetBlock s).txop = 0 := rfl
@[simp] theorem resetBlock_txlen (s : State) : (resetBlock s).txlen = 0 := rfl
@[simp] theorem resetBlock_txbuf (s : State) : (resetBlock s).txbuf = [] := rfl
@[simp] theorem resetBlock_txidx (s : State) : (resetBlock s).txidx = 0 := rfl
@[simp] theorem resetBlock_rxlen (s : State) : (resetBlock s).rxlen = 0 := rfl
@[simp] theorem resetBlock_rxcnt (s : State) : (resetBlock s).rxcnt = 0 := rfl
@[simp] theorem resetBlock_rxbuf (s : State) : (resetBlock s).rxbuf = [] := rfl
@[simp] theorem resetBlock_resClass (s : State) : (resetBlock s).resClass = .none := rfl
@[simp] theorem resetBlock_resCause (s : State) : (resetBlock s).resCause = .none := rfl
@[simp] theorem resetBlock_resStatus (s : State) : (resetBlock s).resStatus = 0 := rfl
@[simp] theorem resetBlock_txStream (s : State) : (resetBlock s).txStream = s.txStream := rfl
@[simp] theorem resetBlock_rxStream (s : State) : (resetBlock s).rxStream = s.rxStream := rfl
@[simp] theorem resetBlock_params (s : State) : (resetBlock s).params = s.params := rfl
@[simp] theorem resetBlock_answer (s : State) : (resetBlock s).answer = s.answer := rfl
@[simp] theorem resetBlock_chanReady (s : State) : (resetBlock s).chanReady = s.chanReady := rfl
@[simp] theorem resetBlock_moments (s : State) : (resetBlock s).moments = s.moments := rfl
@[simp] theorem resetBlock_task (s : State) : (resetBlock s).task = s.task := rfl
@[simp] theorem resetBlock_result (s : State) : (resetBlock s).result = s.result := rfl

end Sys2Proof.Machine
end

