-- ==== Sys2Proof/Laws/Ops.lean ====
section
/-! SUPPORT. The laws of the shared operations: sequencing, the refusal by phase, the wire bytes of a
command. -/

namespace Sys2Proof.Machine

@[simp] theorem andThen_next (s : State) (k : State → Result) : andThen (.next s) k = k s := rfl
@[simp] theorem andThen_fault (f : Fault) (k : State → Result) : andThen (.fault f) k = .fault f := rfl
@[simp] theorem andThen_refused (q : Refusal) (k : State → Result) :
    andThen (.refused q) k = .refused q := rfl

@[simp] theorem withValue_ok {α : Type} (a : α) (k : α → Result) : withValue (.ok a) k = k a := rfl
@[simp] theorem withValue_error {α : Type} (f : Fault) (k : α → Result) :
    withValue (.error f : Except Fault α) k = .fault f := rfl

@[simp] theorem forEach_nil {α : Type} (op : α → State → Result) (s : State) :
    forEach op [] s = .next s := rfl
@[simp] theorem forEach_cons {α : Type} (op : α → State → Result) (x : α) (xs : List α) (s : State) :
    forEach op (x :: xs) s = andThen (op x s) (forEach op xs) := rfl

/-- If a sequence answers a next state, its first part did, and the rest went on from there. -/
theorem andThen_eq_next {r : Result} {k : State → Result} {t : State} (h : andThen r k = .next t) :
    ∃ s, r = .next s ∧ k s = .next t := by
  cases r with
  | next s => exact ⟨s, rfl, h⟩
  | fault f => cases h
  | refused q => cases h

/-- If a step that needs a value answers a next state, the value was there. -/
theorem withValue_eq_next {α : Type} {e : Except Fault α} {k : α → Result} {t : State}
    (h : withValue e k = .next t) : ∃ a, e = .ok a ∧ k a = .next t := by
  cases e with
  | ok a => exact ⟨a, rfl, h⟩
  | error f => cases h

theorem andThen_assoc (r : Result) (f g : State → Result) :
    andThen (andThen r f) g = andThen r fun s => andThen (f s) g := by
  cases r <;> rfl

/-- All that a host operation can answer: in a legal phase what it does, in another `REFUSED` with nothing
changed. -/
theorem inPhase_cases (legal : Phase → Bool) (s : State) (k : Result) :
    (legal s.phase = true ∧ inPhase legal s k = k)
    ∨ (legal s.phase = false ∧ inPhase legal s k = .next (respond .refused 0 s)) := by
  cases h : legal s.phase <;> simp [inPhase, h]

theorem inIdle_idle {s : State} (h : s.phase = .idle) (k : Result) : inIdle s k = k := by
  simp [inIdle, inPhase, h]

theorem inIdle_refused {s : State} (h : s.phase ≠ .idle) (k : Result) :
    inIdle s k = .next (respond .refused 0 s) := by
  simp [inIdle, inPhase, h]

theorem inDone_done {s : State} (h : s.phase = .success ∨ s.phase = .failed) (k : Result) :
    inDone s k = k := by
  rcases h with h | h <;> simp [inDone, inPhase, h]

theorem inDone_refused {s : State} (h : s.phase ≠ .success) (h' : s.phase ≠ .failed) (k : Result) :
    inDone s k = .next (respond .refused 0 s) := by
  simp [inDone, inPhase, h, h']

theorem inSuccess_success {s : State} (h : s.phase = .success) (k : Result) : inSuccess s k = k := by
  simp [inSuccess, inPhase, h]

theorem inSuccess_refused {s : State} (h : s.phase ≠ .success) (k : Result) :
    inSuccess s k = .next (respond .refused 0 s) := by
  simp [inSuccess, inPhase, h]

/-- The wire byte of a command at each index (R175). -/
theorem commandByte_spec (s : State) (h : s.txidx.toNat ≤ s.txlen.toNat + 4) :
    (s.txidx.toNat = 0 ∧ commandByte s = .ok (BitVec.ofNat 8 (s.txlen.toNat + 4)))
    ∨ (s.txidx.toNat = 1 ∧ commandByte s = .ok s.addr)
    ∨ (s.txidx.toNat = 2 ∧ commandByte s = .ok s.txop)
    ∨ (3 ≤ s.txidx.toNat ∧ s.txidx.toNat < s.txlen.toNat + 3 ∧
        commandByte s = memRead .txbuf (s.txidx.toNat - 3) s)
    ∨ (s.txidx.toNat = s.txlen.toNat + 3 ∧ commandByte s = .ok (lo8 s.crc))
    ∨ (s.txidx.toNat = s.txlen.toNat + 4 ∧ commandByte s = .ok (hi8 s.crc)) := by
  unfold commandByte
  rcases Nat.lt_or_ge s.txidx.toNat 3 with h3 | h3
  · have : s.txidx.toNat = 0 ∨ s.txidx.toNat = 1 ∨ s.txidx.toNat = 2 := by omega
    rcases this with h | h | h <;> simp [h]
  · have h0 : s.txidx.toNat ≠ 0 := by omega
    have h1 : s.txidx.toNat ≠ 1 := by omega
    have h2 : s.txidx.toNat ≠ 2 := by omega
    simp only [h0, h1, h2, if_false, false_and, false_or]
    rcases Nat.lt_trichotomy s.txidx.toNat (s.txlen.toNat + 3) with hlt | heq | hgt
    · exact .inl ⟨h3, hlt, by rw [if_pos (by omega)]⟩
    · exact .inr (.inl ⟨heq, by rw [if_neg (by omega), if_pos (by omega)]⟩)
    · exact .inr (.inr ⟨by omega, by rw [if_neg (by omega), if_neg (by omega), if_pos (by omega)]⟩)

end Sys2Proof.Machine
end

