-- ==== Sys2Proof/Laws/Exchange.lean ====
section
/-! SUPPORT. What the sequences of steps shared by the families do: staging, sending a command whole, taking a
response whole, reading a payload out. -/

namespace Sys2Proof.Machine

/-! ## Several bytes written in order -/

/-- The buffer with `bytes` at indexes `i`, `i + 1`, … -/
def Memory.writeAll (m : Memory) (i : Nat) : List Byte → Memory
  | [] => m
  | b :: bytes => Memory.writeAll (m.write i b) (i + 1) bytes

theorem Memory.read_writeAll (bytes : List Byte) (m : Memory) (i j : Nat) :
    (m.writeAll i bytes).read j =
      if i ≤ j ∧ j < i + bytes.length then bytes[j - i]? else m.read j := by
  induction bytes generalizing m i with
  | nil => rw [if_neg (by simp)]; rfl
  | cons b bytes ih =>
    simp only [Memory.writeAll, ih, List.length_cons]
    by_cases h : i + 1 ≤ j ∧ j < i + 1 + bytes.length
    · rw [if_pos h, if_pos (by omega), show j - i = (j - (i + 1)) + 1 by omega]
      simp
    · rw [if_neg h, Memory.read_write]
      split
      · next he => subst he; rw [if_pos (by omega)]; simp
      · rw [if_neg (by omega)]

theorem Memory.wf_writeAll (bytes : List Byte) (m : Memory) (i : Nat) (h : m.wf = true) :
    (m.writeAll i bytes).wf = true := by
  induction bytes generalizing m i with
  | nil => exact h
  | cons b bytes ih => exact ih _ _ (Memory.wf_write m i b h)

theorem Memory.writeAll_concat (bytes : List Byte) (m : Memory) (i : Nat) (b : Byte) :
    m.writeAll i (bytes ++ [b]) = (m.writeAll i bytes).write (i + bytes.length) b := by
  induction bytes generalizing m i with
  | nil => rfl
  | cons c bytes ih => simp [Memory.writeAll, ih, Nat.add_assoc, Nat.add_comm 1]

/-- A span that has been written in whole is what was written. -/
theorem Memory.span_writeAll (bytes : List Byte) (m : Memory) :
    (m.writeAll 0 bytes).span bytes.length = bytes := by
  apply List.ext_getElem?
  intro j
  by_cases h : j < bytes.length
  · simp [Memory.span, Memory.read_writeAll, h]
  · simp [Memory.span, h]

/-! ## Staging and start -/

/-- Pushing bytes that fit (R173). -/
theorem push_spec (bytes : List Byte) (s : State) (hp : s.phase = .idle) (ha : s.answer = some ⟨.ok, 0⟩)
    (hl : s.txlen.toNat + bytes.length ≤ maxPayload) :
    forEach execTxPush bytes s = .next
      { s with
        txbuf := s.txbuf.writeAll s.txlen.toNat bytes
        txlen := BitVec.ofNat 8 (s.txlen.toNat + bytes.length) } := by
  induction bytes generalizing s with
  | nil => simp [Memory.writeAll]
  | cons b bytes ih =>
    simp only [List.length_cons, maxPayload] at hl
    have hpush : execTxPush b s = .next (respond .ok 0
        { s with txbuf := s.txbuf.write s.txlen.toNat b
                 txlen := BitVec.ofNat 8 (s.txlen.toNat + 1) }) := by
      unfold execTxPush
      rw [inIdle_idle hp, if_pos (by simp only [maxPayload]; omega), memWrite_txbuf _ _ _ (by omega)]
      rfl
    have hmod : (s.txlen.toNat + 1) % 256 = s.txlen.toNat + 1 := Nat.mod_eq_of_lt (by omega)
    rw [forEach_cons, hpush, andThen_next, ih]
    · simp [Memory.writeAll, respond, ha, hmod, Nat.add_comm 1, Nat.add_assoc]
    · exact hp
    · rfl
    · simp only [respond_txlen, BitVec.toNat_ofNat, maxPayload]; omega

/-- Pushing more bytes than fit stores those that do and leaves the overflow value 252 (R173). -/
theorem push_overflow (bytes : List Byte) (s : State) (hp : s.phase = .idle)
    (ht : s.txlen.toNat ≤ 252) (hl : maxPayload < s.txlen.toNat + bytes.length) :
    ∃ a, forEach execTxPush bytes s = .next
      { s with
        txbuf := s.txbuf.writeAll s.txlen.toNat (bytes.take (maxPayload - s.txlen.toNat))
        txlen := 252, answer := a } := by
  induction bytes generalizing s with
  | nil =>
    simp only [maxPayload, List.length_nil, Nat.add_zero] at hl
    have : s.txlen = 252 := BitVec.eq_of_toNat_eq (by simp; omega)
    exact ⟨s.answer, by simp [← this, Memory.writeAll]⟩
  | cons b bytes ih =>
    simp only [List.length_cons, maxPayload] at hl
    by_cases hlt : s.txlen.toNat < 251
    · have hpush : execTxPush b s = .next (respond .ok 0
          { s with txbuf := s.txbuf.write s.txlen.toNat b
                   txlen := BitVec.ofNat 8 (s.txlen.toNat + 1) }) := by
        unfold execTxPush
        rw [inIdle_idle hp, if_pos (by simpa only [maxPayload] using hlt), memWrite_txbuf _ _ _ (by omega)]
        rfl
      have hmod : (s.txlen.toNat + 1) % 256 = s.txlen.toNat + 1 := Nat.mod_eq_of_lt (by omega)
      obtain ⟨a, h⟩ := ih (respond .ok 0
          { s with txbuf := s.txbuf.write s.txlen.toNat b
                   txlen := BitVec.ofNat 8 (s.txlen.toNat + 1) }) hp (by simp; omega)
          (by simp [maxPayload]; omega)
      refine ⟨a, ?_⟩
      rw [forEach_cons, hpush, andThen_next, h, maxPayload,
        show 251 - s.txlen.toNat = (251 - (s.txlen.toNat + 1)) + 1 by omega]
      simp [Memory.writeAll, respond, hmod]
    · have hpush : execTxPush b s = .next (respond .ok 0 { s with txlen := 252 }) := by
        unfold execTxPush
        rw [inIdle_idle hp, if_neg (by simpa only [maxPayload] using hlt)]
      obtain ⟨a, h⟩ := ih (respond .ok 0 { s with txlen := 252 }) hp (by simp) (by simp [maxPayload]; omega)
      refine ⟨a, ?_⟩
      rw [forEach_cons, hpush, andThen_next, h]
      simp [Memory.writeAll, respond, maxPayload, show 251 - s.txlen.toNat = 0 by omega]

/-- Staging a payload that fits and starting an exchange with an operation code of the closed set (R172 to
R174). -/
theorem beginExchange_spec (op : Byte) (payload : List Byte) (s : State) (hp : s.phase = .idle)
    (hop : isOperation op = true) (hl : payload.length ≤ maxPayload) :
    beginExchange op payload s = .next
      { s with
        crc := crcSeed, txop := op, txidx := 0, phase := .sending
        txbuf := s.txbuf.writeAll 0 payload
        txlen := BitVec.ofNat 8 payload.length
        resClass := .none, resCause := .none, resStatus := 0, answer := some ⟨.ok, 0⟩ } := by
  have hclear : execTxClear s = .next (respond .ok 0 { s with txlen := 0 }) := by
    unfold execTxClear; rw [inIdle_idle hp]
  have hpush := push_spec payload (respond .ok 0 { s with txlen := 0 }) hp rfl (by simpa using hl)
  unfold beginExchange
  rw [hclear, andThen_next, hpush, andThen_next]
  unfold execXchgStart
  rw [inIdle_idle (by exact hp)]
  have hmod : payload.length % 256 = payload.length := Nat.mod_eq_of_lt (by simp only [maxPayload] at hl; omega)
  simp [hop, hmod, Nat.not_lt.2 hl, clearResult, respond]

/-! ## Sending -/

theorem length_commandHead (s : State) : (commandHead s).length = s.txlen.toNat + 3 := by
  simp [commandHead]

/-- The wire byte that a command in progress emits next is that of the frame (R175). -/
theorem commandByte_frame (s : State) (hi : s.txidx.toNat ≤ s.txlen.toNat + 4)
    (hl : s.txlen.toNat ≤ maxPayload)
    (hw : ∀ i, i < s.txlen.toNat → (s.txbuf.read i).isSome)
    (hc : s.txlen.toNat + 3 ≤ s.txidx.toNat → s.crc = Sys2Proof.crc (commandHead s)) :
    ∃ b, commandByte s = .ok b ∧
      (commandHead s ++ trailer (Sys2Proof.crc (commandHead s)))[s.txidx.toNat]? = some b := by
  have hlen := length_commandHead s
  simp only [maxPayload] at hl
  rcases commandByte_spec s hi with ⟨h, e⟩ | ⟨h, e⟩ | ⟨h, e⟩ | ⟨h, h', e⟩ | ⟨h, e⟩ | ⟨h, e⟩
  · exact ⟨_, e, by simp [h, commandHead]⟩
  · exact ⟨_, e, by simp [h, commandHead]⟩
  · exact ⟨_, e, by simp [h, commandHead]⟩
  · obtain ⟨k, hk⟩ : ∃ k, s.txidx.toNat = k + 3 := ⟨s.txidx.toNat - 3, by omega⟩
    have hk' : k < s.txlen.toNat := by omega
    obtain ⟨b, hb⟩ := Option.isSome_iff_exists.1 (hw k hk')
    simp only [hk, Nat.add_sub_cancel] at e
    rw [memRead_of_written .txbuf k s b (by simp [Space.size]; omega) hb] at e
    refine ⟨b, e, ?_⟩
    rw [List.getElem?_append_left (by omega)]
    simp [hk, commandHead, Memory.span, hb, hk']
  · refine ⟨_, e, ?_⟩
    rw [List.getElem?_append_right (by omega), hlen, h, hc (by omega)]
    simp [trailer]
  · refine ⟨_, e, ?_⟩
    rw [List.getElem?_append_right (by omega), hlen, h, hc (by omega)]
    simp [trailer, show s.txlen.toNat + 4 - (s.txlen.toNat + 3) = 1 by omega]

/-- One `CH.TXBYTE` of a command in progress: the next byte of the frame leaves; before the trailer it
enters the CRC; after the last byte the block waits for the response (R175). -/
theorem execChTxbyte_spec (s : State) (hp : s.phase = .sending)
    (hi : s.txidx.toNat ≤ s.txlen.toNat + 4) (hl : s.txlen.toNat ≤ maxPayload)
    (hw : ∀ i, i < s.txlen.toNat → (s.txbuf.read i).isSome)
    (hc : s.crc = Sys2Proof.crc ((commandHead s).take s.txidx.toNat)) :
    ∃ b, (commandHead s ++ trailer (Sys2Proof.crc (commandHead s)))[s.txidx.toNat]? = some b ∧
      execChTxbyte s = .next
        { s with
          txStream := s.txStream ++ [b]
          txidx := BitVec.ofNat 9 (s.txidx.toNat + 1)
          phase := if s.txidx.toNat = s.txlen.toNat + 4 then .awaitingLength else .sending
          crc := if s.txidx.toNat = s.txlen.toNat + 4 then crcSeed
            else Sys2Proof.crc ((commandHead s).take (s.txidx.toNat + 1))
          rxcnt := if s.txidx.toNat = s.txlen.toNat + 4 then 0 else s.rxcnt } := by
  have hlen := length_commandHead s
  obtain ⟨b, hb, hf⟩ := commandByte_frame s hi hl hw fun h => by
    rw [hc, List.take_of_length_le (by omega)]
  refine ⟨b, hf, ?_⟩
  unfold execChTxbyte
  rw [if_pos hp, hb, withValue_ok]
  by_cases hlast : s.txidx.toNat = s.txlen.toNat + 4
  · simp [hlast, emit]
  · by_cases hh : s.txidx.toNat + 2 ≤ s.txlen.toNat + 4
    · have hx : (commandHead s)[s.txidx.toNat]? = some b := by
        rw [← hf, List.getElem?_append_left (by omega)]
      have : crcByte s.crc b = Sys2Proof.crc ((commandHead s).take (s.txidx.toNat + 1)) := by
        rw [List.take_add_one, hx, hc]
        exact (crc_concat _ _).symm
      simp [hlast, hh, emit, hp, this]
    · have : s.crc = Sys2Proof.crc ((commandHead s).take (s.txidx.toNat + 1)) := by
        rw [hc, List.take_of_length_le (by omega), List.take_of_length_le (by omega)]
      simp [hlast, hh, emit, hp, ← this]

/-- A command in progress is sent to its end: the rest of its frame leaves in order, and the block then
waits for the response (R175). -/
theorem sendAll_spec (k : Nat) (s : State) (hp : s.phase = .sending)
    (hi : s.txidx.toNat ≤ s.txlen.toNat + 4) (hl : s.txlen.toNat ≤ maxPayload)
    (hw : ∀ i, i < s.txlen.toNat → (s.txbuf.read i).isSome)
    (hc : s.crc = Sys2Proof.crc ((commandHead s).take s.txidx.toNat))
    (hk : s.txlen.toNat + 5 ≤ s.txidx.toNat + k) :
    sendAll k s = .next
      { s with
        txStream := s.txStream ++
          (commandHead s ++ trailer (Sys2Proof.crc (commandHead s))).drop s.txidx.toNat
        txidx := BitVec.ofNat 9 (s.txlen.toNat + 5)
        phase := .awaitingLength, crc := crcSeed, rxcnt := 0 } := by
  induction k generalizing s with
  | zero => omega
  | succ k ih =>
    obtain ⟨b, hf, he⟩ := execChTxbyte_spec s hp hi hl hw hc
    have hlen := length_commandHead s
    simp only [maxPayload] at hl
    have hdrop : (commandHead s ++ trailer (Sys2Proof.crc (commandHead s))).drop s.txidx.toNat =
        b :: (commandHead s ++ trailer (Sys2Proof.crc (commandHead s))).drop (s.txidx.toNat + 1) := by
      rw [List.drop_eq_getElem?_toList_append, hf]; rfl
    rw [sendAll, if_pos hp, he, andThen_next]
    by_cases hlast : s.txidx.toNat = s.txlen.toNat + 4
    · have hnil : (commandHead s ++ trailer (Sys2Proof.crc (commandHead s))).drop (s.txidx.toNat + 1) = [] :=
        List.drop_of_length_le (by simp [hlen, trailer]; omega)
      rw [hdrop, hnil]
      cases k <;> simp [sendAll, hlast]
    · have hmod : (s.txidx.toNat + 1) % 512 = s.txidx.toNat + 1 := Nat.mod_eq_of_lt (by omega)
      rw [ih]
      · simp only [hlast, if_false, BitVec.toNat_ofNat, show (2 : Nat) ^ 9 = 512 from rfl, hmod, hdrop]
        simp [commandHead, List.append_assoc]
      · simp [hlast]
      · simp [hmod]; omega
      · simp [maxPayload]; omega
      · exact hw
      · simp [hlast, hmod, commandHead]
      · simp [hmod]; omega

/-! ## Receiving -/

/-- The body of a response, taken from AwaitingBody on (R177): all that is missing of it, and no byte more. -/
theorem takeBody_spec (bytes more : List Byte) (s : State) (hp : s.phase = .awaitingBody)
    (hn : 1 ≤ bytes.length) (hc : s.rxcnt.toNat + bytes.length = s.rxlen.toNat + 1) :
    takeAll (bytes ++ more) s = .next
      { s with
        rxbuf := s.rxbuf.writeAll s.rxcnt.toNat bytes
        rxcnt := BitVec.ofNat 9 (s.rxlen.toNat + 1)
        crc := crcFrom s.crc (bytes.take (s.rxlen.toNat - 1 - s.rxcnt.toNat))
        phase := .validating, rxStream := more } := by
  induction bytes generalizing s with
  | nil => simp at hn
  | cons b bytes ih =>
    have hlt : s.rxlen.toNat < 256 := s.rxlen.isLt
    simp only [List.length_cons] at hc
    have hbody : execChRxbyteBody b s = .next
        { s with
          rxbuf := s.rxbuf.write s.rxcnt.toNat b
          crc := if s.rxcnt.toNat + 2 ≤ s.rxlen.toNat then crcByte s.crc b else s.crc
          rxcnt := BitVec.ofNat 9 (s.rxcnt.toNat + 1)
          phase := if s.rxcnt.toNat = s.rxlen.toNat then .validating else s.phase } := by
      unfold execChRxbyteBody
      rw [if_pos hp]
      dsimp only
      rw [memWrite_rxbuf _ _ _ (by omega)]
      rfl
    simp only [List.cons_append, takeAll, hp, hbody, andThen_next]
    have hmod : (s.rxcnt.toNat + 1) % 512 = s.rxcnt.toNat + 1 := Nat.mod_eq_of_lt (by omega)
    cases bytes with
    | nil =>
      simp only [List.length_nil, Nat.zero_add] at hc
      have he : s.rxcnt.toNat = s.rxlen.toNat := by omega
      have htake : (takeAll more : State → Result) = takeAll more := rfl
      have hz : s.rxlen.toNat - 1 - s.rxcnt.toNat = 0 := by omega
      have hno : ¬ s.rxlen.toNat + 2 ≤ s.rxlen.toNat := by omega
      cases more <;> simp [takeAll, he, Memory.writeAll]
    | cons c bytes =>
      simp only [List.length_cons] at hc
      have hne : s.rxcnt.toNat ≠ s.rxlen.toNat := by omega
      simp only [List.cons_append] at ih
      simp only [List.cons_append]
      rw [ih]
      · simp only [BitVec.toNat_ofNat, show (2 : Nat) ^ 9 = 512 from rfl, hmod, Memory.writeAll]
        by_cases h2 : s.rxcnt.toNat + 2 ≤ s.rxlen.toNat
        · rw [if_pos h2, show s.rxlen.toNat - 1 - s.rxcnt.toNat
            = (s.rxlen.toNat - 1 - (s.rxcnt.toNat + 1)) + 1 by omega]
          simp
        · rw [if_neg h2, show s.rxlen.toNat - 1 - s.rxcnt.toNat = 0 by omega,
            show s.rxlen.toNat - 1 - (s.rxcnt.toNat + 1) = 0 by omega]
          simp
      · simp [hne]
      · simp
      · simp [hmod]; omega

/-- A beginning of what is missing of a response: all of it is taken and the block goes on waiting (R177). -/
theorem takeBody_part (bytes : List Byte) (s : State) (hp : s.phase = .awaitingBody)
    (hc : s.rxcnt.toNat + bytes.length ≤ s.rxlen.toNat) :
    takeAll bytes s = .next
      { s with
        rxbuf := s.rxbuf.writeAll s.rxcnt.toNat bytes
        rxcnt := BitVec.ofNat 9 (s.rxcnt.toNat + bytes.length)
        crc := crcFrom s.crc (bytes.take (s.rxlen.toNat - 1 - s.rxcnt.toNat))
        rxStream := [] } := by
  induction bytes generalizing s with
  | nil => simp [takeAll, Memory.writeAll]
  | cons b bytes ih =>
    have hlt : s.rxlen.toNat < 256 := s.rxlen.isLt
    simp only [List.length_cons] at hc
    have hbody : execChRxbyteBody b s = .next
        { s with
          rxbuf := s.rxbuf.write s.rxcnt.toNat b
          crc := if s.rxcnt.toNat + 2 ≤ s.rxlen.toNat then crcByte s.crc b else s.crc
          rxcnt := BitVec.ofNat 9 (s.rxcnt.toNat + 1) } := by
      unfold execChRxbyteBody
      rw [if_pos hp]
      dsimp only
      rw [memWrite_rxbuf _ _ _ (by omega), withValue_ok]
      simp [show s.rxcnt.toNat ≠ s.rxlen.toNat by omega]
    have hmod : (s.rxcnt.toNat + 1) % 512 = s.rxcnt.toNat + 1 := Nat.mod_eq_of_lt (by omega)
    simp only [takeAll, hp, hbody, andThen_next]
    rw [ih _ rfl (by show (BitVec.ofNat 9 (s.rxcnt.toNat + 1)).toNat + _ ≤ s.rxlen.toNat
                     rw [BitVec.toNat_ofNat, hmod]; omega)]
    simp only [BitVec.toNat_ofNat, show (2 : Nat) ^ 9 = 512 from rfl, hmod, Memory.writeAll, List.length_cons,
      show s.rxcnt.toNat + 1 + bytes.length = s.rxcnt.toNat + (bytes.length + 1) by omega]
    by_cases h2 : s.rxcnt.toNat + 2 ≤ s.rxlen.toNat
    · rw [if_pos h2, show s.rxlen.toNat - 1 - s.rxcnt.toNat
        = (s.rxlen.toNat - 1 - (s.rxcnt.toNat + 1)) + 1 by omega]
      simp
    · rw [if_neg h2, show s.rxlen.toNat - 1 - s.rxcnt.toNat = 0 by omega,
        show s.rxlen.toNat - 1 - (s.rxcnt.toNat + 1) = 0 by omega]
      simp

/-- A response taken whole from AwaitingLength on: exactly as many bytes as its first byte announces, the
CRC over all of them but the last two (R176, R177). -/
theorem takeAll_spec (len : Byte) (body more : List Byte) (s : State) (hp : s.phase = .awaitingLength)
    (hc : s.crc = crcSeed) (hn : body.length = len.toNat) :
    takeAll (len :: body ++ more) s = .next
      { s with
        rxbuf := s.rxbuf.writeAll 0 (len :: body)
        rxlen := len
        rxcnt := BitVec.ofNat 9 (len.toNat + 1)
        crc := Sys2Proof.crc ((len :: body).take (len.toNat - 1))
        phase := .validating, rxStream := more } := by
  have hlength : execChRxbyteLength len s = .next
      { s with
        rxbuf := s.rxbuf.write 0 len
        rxlen := len, rxcnt := 1
        crc := if len.toNat ≥ 2 then crcByte s.crc len else s.crc
        phase := if len = 0 then .validating else .awaitingBody } := by
    unfold execChRxbyteLength
    rw [if_pos hp, memWrite_rxbuf _ _ _ (by omega)]
    rfl
  simp only [List.cons_append, takeAll, hp, hlength, andThen_next]
  by_cases h0 : len = 0
  · subst h0
    have : body = [] := List.eq_nil_of_length_eq_zero (by simpa using hn)
    subst this
    cases more <;> simp [takeAll, Memory.writeAll, hc, Sys2Proof.crc]
  · have hpos : 1 ≤ len.toNat := by
      rcases Nat.eq_zero_or_pos len.toNat with h | h
      · exact absurd (BitVec.eq_of_toNat_eq (by simpa using h)) h0
      · exact h
    rw [takeBody_spec body more _ (if_neg h0) (by omega) (by simp; omega)]
    by_cases h2 : 2 ≤ len.toNat
    · rw [show len.toNat - 1 = (len.toNat - 1 - 1) + 1 by omega]
      simp [Memory.writeAll, h2, hc, Sys2Proof.crc]
    · have h1 : len.toNat = 1 := by omega
      simp [Memory.writeAll, h1, hc, Sys2Proof.crc]

/-- `VALIDATE` on a whole received frame is the judgement of the functions (R179). -/
theorem execValidate_spec (frame : List Byte) (s : State) (hp : s.phase = .validating)
    (hl : frame.length = s.rxlen.toNat + 1)
    (hb : ∀ i, i < frame.length → s.rxbuf.read i = frame[i]?)
    (h0 : frame.getD 0 0 = s.rxlen)
    (hc : s.crc = Sys2Proof.crc (frame.take (frame.length - 2))) :
    execValidate s = .next (judgedBy frame s) := by
  have hlt : s.rxlen.toNat < 256 := s.rxlen.isLt
  have hread : ∀ i, i < frame.length → memRead .rxbuf i s = .ok (frame.getD i 0) := by
    intro i hi
    refine memRead_of_written .rxbuf i s _ (by simp only [Space.size]; omega) ?_
    show s.rxbuf.read i = _
    rw [hb i hi]
    simp [hi]
  have hlen : lengthOk frame = true := by
    simp only [lengthOk, h0, hl, Nat.add_sub_cancel, decide_true, Bool.and_true, decide_eq_true_eq]
    omega
  unfold execValidate judgedBy
  rw [if_pos hp]
  simp only [decodeResponse, hlen, Bool.not_true, Bool.false_eq_true, if_false]
  by_cases h5 : s.rxlen.toNat < minRspLength
  · rw [if_pos h5, if_pos (by omega)]
    simp
  · rw [if_neg h5, if_neg (by omega)]
    simp only [minRspLength] at h5
    rw [hread _ (by omega), withValue_ok, hread _ (by omega), withValue_ok]
    have htr : trailerOk frame = decide (s.crc = le16 (frame.getD (s.rxlen.toNat - 1) 0) (frame.getD s.rxlen.toNat 0)) := by
      simp only [trailerOk, hc, hl, show s.rxlen.toNat + 1 - 2 = s.rxlen.toNat - 1 by omega,
        Nat.add_sub_cancel]
      exact (Bool.beq_eq_decide_eq _ _)
    by_cases hcrc : s.crc = le16 (frame.getD (s.rxlen.toNat - 1) 0) (frame.getD s.rxlen.toNat 0)
    · rw [if_neg (by simpa using hcrc), hread 3 (by omega), withValue_ok]
      simp only [htr, hcrc, decide_true, Bool.not_true, Bool.false_eq_true, if_false]
      cases statusDecode s.params (frame.getD 3 0) <;> simp
    · rw [if_pos hcrc]
      simp only [htr, hcrc, decide_false, Bool.not_false, if_true]
      rfl

/-! ## Reading out -/

/-- Reading indexes `i`, `i + 1`, … of a validated response: `RD.RSP` answers the bytes (R187, R192). -/
theorem readBytes_spec (bytes : List Byte) (i : Nat) (got : List Byte) (s : State)
    (k : List Byte → State → Result) (hp : s.phase = .success)
    (hi : i + bytes.length + 1 ≤ s.rxlen.toNat)
    (hb : ∀ j, j < bytes.length → s.rxbuf.read (i + j) = bytes[j]?) :
    ∃ a, readBytes (List.range' i bytes.length) got s k = k (got ++ bytes) { s with answer := a } := by
  induction bytes generalizing i got s with
  | nil => exact ⟨s.answer, by simp [readBytes]⟩
  | cons b bytes ih =>
    have hlt : s.rxlen.toNat < 256 := s.rxlen.isLt
    simp only [List.length_cons] at hi
    have h0 : s.rxbuf.read i = some b := by simpa using hb 0 (by simp)
    have hmod : i % 256 = i := Nat.mod_eq_of_lt (by omega)
    have hread : execRdRsp (BitVec.ofNat 8 i) s = .next (respond .ok (b.setWidth 16) s) := by
      unfold execRdRsp
      rw [inSuccess_success hp]
      simp only [BitVec.toNat_ofNat, show (2 : Nat) ^ 8 = 256 from rfl, hmod]
      rw [if_neg (by omega), memRead_of_written .rxbuf i s b (by simp only [Space.size]; omega) h0]
      rfl
    obtain ⟨a, ha⟩ := ih (i + 1) (got ++ [b]) (respond .ok (b.setWidth 16) s) hp (by simp; omega) (by
      intro j hj
      have := hb (j + 1) (by simp; omega)
      simpa [Nat.add_assoc, Nat.add_comm 1] using this)
    refine ⟨a, ?_⟩
    have hlo : lo8 (BitVec.setWidth 16 b) = b := by
      apply BitVec.eq_of_getLsbD_eq
      intro n hn
      simp [lo8, hn, show n < 16 by omega]
    simp only [List.length_cons, List.range'_succ, readBytes, hread, andThen_next]
    have hans : answered (respond RCode.ok (BitVec.setWidth 16 b) s) = BitVec.setWidth 16 b := rfl
    rw [hans, hlo, ha]
    simp [respond]

end Sys2Proof.Machine
end

