-- ==== Sys2Proof/Laws/Step.lean ====
section
/-! SUPPORT. What a step does when the host's turn comes, and what it makes of a command frame that the host offers. -/

namespace Sys2Proof.Machine

/-- Where nothing goes before the host, the action is the host's, on the state at that moment (R217). -/
theorem nextAction_of_hostFirst {s : State} {m : Moment} {rest : List Moment} (h : s.moments = m :: rest)
    (hf : HostFirst s m) : nextAction s = hostTurn m (arrived s m rest) := by
  obtain ⟨h1, h2, h3, h4, h5⟩ := hf
  have hm : presentMoment s = m := by simp [presentMoment, h]
  have he : enterMoment s = arrived s m rest := by simp [enterMoment, arrived, hm, h]
  have hi : internalTurn m (arrived s m rest) = hostTurn m (arrived s m rest) := by
    unfold internalTurn
    rw [if_neg]
    rintro ⟨hint, hp⟩
    exact h5 hint hp
  unfold nextAction choose
  rw [hm, he]
  simp only [h1, h2, Bool.false_eq_true, if_false, frameTurn, h3]
  unfold channelTurn
  split
  · next hc hp => exact absurd hp (h4 hc).1
  · next b bs hc hp hx =>
    have := (h4 hc).2 (.inl hp)
    simp only [arrived] at hx
    simp [hx] at this
  · next b bs hc hp hx =>
    have := (h4 hc).2 (.inr hp)
    simp only [arrived] at hx
    simp [hx] at this
  · exact hi

/-! ## A command frame read back and built again -/

theorem memlocCode_of_decode {p : Params} {b : Byte} {l : MemLoc} (h : p.memlocDecode b = some l) :
    p.memlocCode l = b := by
  unfold Params.memlocDecode at h
  simpa using List.find?_some h

theorem passwordField_parsePassword (a b c d : Byte) :
    passwordField (parsePassword [a, b, c, d]) = some [a, b, c, d] := by
  unfold parsePassword
  split
  · next h =>
    simp at h
    obtain ⟨rfl, rfl, rfl, rfl⟩ := h
    rfl
  · rfl

theorem maskField_parseMask {tail : List Byte} {m : Option Byte × Option Byte} (h : parseMask tail = some m) :
    maskField m.1 m.2 = some tail := by
  unfold parseMask at h
  split at h <;> cases h <;> rfl

/-- The words that a count byte announces are counted by it and of even length. -/
theorem wordCount_take {bytes : List Byte} {words : Byte} (h : 2 * words.toNat ≤ bytes.length) :
    wordCount (bytes.take (2 * words.toNat)) = words
    ∧ evenLength (bytes.take (2 * words.toNat)) = true := by
  have hl : (bytes.take (2 * words.toNat)).length = 2 * words.toNat := by simp; omega
  refine ⟨?_, by simp [evenLength, hl]⟩
  unfold wordCount
  rw [hl, if_pos (by have := words.isLt; omega)]
  simp

/-- What a count byte announces is there if anything stands behind it. -/
theorem le_of_drop_eq_cons {bytes tail : List Byte} {n : Nat} {b : Byte} (h : bytes.drop n = b :: tail) :
    n ≤ bytes.length := by
  by_contra hc
  rw [List.drop_of_length_le (by omega)] at h
  cases h

/-- The command that a code and a payload stand for sends exactly this code and payload (R76, R133 to R135). -/
theorem exec_of_commandOf {address op : Byte} {payload : List Byte} {i : Instr} {s : State}
    (h : commandOf s.params address op payload = .ok i) : exec i s = sendCommand address op payload s := by
  unfold commandOf at h
  by_cases ho : op = opInventory
  · rw [if_pos ho] at h
    split at h <;> cases h
    subst ho
    next hh => subst hh; rfl
  rw [if_neg ho] at h; clear ho
  by_cases ho : op = opReadData
  · rw [if_pos ho] at h
    split at h <;> cases h
    subst ho
    next c hc =>
    cases payload with
    | nil => simp [parseReadCommand] at hc
    | cons w bytes =>
      simp only [parseReadCommand] at hc
      split at hc
      · next hd =>
        split at hc
        · next hl hm =>
          cases hc
          obtain ⟨hw, he⟩ := wordCount_take (le_of_drop_eq_cons hd)
          simp only [exec, execCmdReadData, buildRead, hw, he, passwordField_parsePassword,
            maskField_parseMask hm, memlocCode_of_decode hl, sendBuilt]
          congr 2
          conv_rhs => rw [← List.take_append_drop (2 * w.toNat) bytes, hd]
          simp
        · cases hc
      · cases hc
  rw [if_neg ho] at h; clear ho
  by_cases ho : op = opWriteData
  · rw [if_pos ho] at h
    split at h <;> cases h
    subst ho
    next c hc =>
    match payload, hc with
    | [], hc => simp [parseWriteCommand] at hc
    | [_], hc => simp [parseWriteCommand] at hc
    | d :: w :: bytes, hc =>
      simp only [parseWriteCommand] at hc
      split at hc
      · next more hd =>
        split at hc
        · next hd' =>
          split at hc
          · next hl hm =>
            cases hc
            obtain ⟨hw, he⟩ := wordCount_take (le_of_drop_eq_cons hd)
            obtain ⟨hw', he'⟩ := wordCount_take (le_of_drop_eq_cons hd')
            simp only [exec, execCmdWriteData, buildWrite, hw, he, hw', he', Bool.and_self,
              passwordField_parsePassword, maskField_parseMask hm, memlocCode_of_decode hl, sendBuilt]
            congr 3
            conv_rhs =>
              rw [← List.take_append_drop (2 * w.toNat) bytes, hd,
                ← List.take_append_drop (2 * d.toNat) more, hd']
            simp
          · cases hc
        · cases hc
      · cases hc
  rw [if_neg ho] at h; clear ho
  by_cases ho : op = opKillTag
  · rw [if_pos ho] at h
    split at h <;> cases h
    subst ho
    next c hc =>
    cases payload with
    | nil => simp [parseKillCommand] at hc
    | cons w bytes =>
      simp only [parseKillCommand] at hc
      split at hc
      · next hd =>
        split at hc
        · next hm =>
          cases hc
          obtain ⟨hw, he⟩ := wordCount_take (le_of_drop_eq_cons hd)
          simp only [exec, execCmdKillTag, buildKill, hw, he, passwordField_parsePassword,
            maskField_parseMask hm, sendBuilt]
          congr 2
          conv_rhs => rw [← List.take_append_drop (2 * w.toNat) bytes, hd]
          simp
        · cases hc
      · cases hc
  rw [if_neg ho] at h; clear ho
  by_cases ho : op = opGetReaderInformation
  · rw [if_pos ho] at h
    split at h <;> cases h
    subst ho
    next hh => subst hh; rfl
  · rw [if_neg ho] at h; cases h

/-! ## The step -/

/-- A command frame offered in the host's turn is sent as it is, whether or not a row stands for it (R124; log 19). -/
theorem step_of_commandFrame {s : State} {m : Moment} {rest : List Moment} {bytes : List Byte} {f : Frame}
    (h : s.moments = m :: rest) (hf : HostFirst s m) (hh : m.host = some (.command bytes))
    (hc : commandFrame bytes = .ok f) :
    step s = sendCommand f.address f.code f.body (arrived s m rest) := by
  unfold step
  rw [nextAction_of_hostFirst h hf]
  have hp : (arrived s m rest).params = s.params := rfl
  simp only [hostTurn, hh, hostAction, hp, decode, decodeCommand, hc]
  cases hd : commandOf s.params f.address f.code f.body with
  | ok i => exact exec_of_commandOf hd
  | error e => rfl

/-- Bytes offered as a command frame that are none leave the block alone (R150; log 19). -/
theorem step_of_no_commandFrame {s : State} {m : Moment} {rest : List Moment} {bytes : List Byte} {e : Failure}
    (h : s.moments = m :: rest) (hf : HostFirst s m) (hh : m.host = some (.command bytes))
    (hc : commandFrame bytes = .error e) : step s = .next (rejectRecord e (arrived s m rest)) := by
  unfold step
  rw [nextAction_of_hostFirst h hf]
  simp [hostTurn, hh, hostAction, decode, decodeCommand, hc]

end Sys2Proof.Machine
end

