-- ==== Sys2Proof/Machine/Written.lean ====
section
/-! DEFINITION. The written form of operations (30_encoding.md R89). -/

namespace Sys2Proof

/-- The mnemonic of an instruction's row in the opcode table. -/
def mnemonic : Instr → String
  | .cmdInventory _ => "INVENTORY"
  | .cmdReadData _ _ => "READ_DATA"
  | .cmdWriteData _ _ => "WRITE_DATA"
  | .cmdKillTag _ _ => "KILL_TAG"
  | .cmdGetReaderInformation _ => "GET_READER_INFORMATION"
  | .statusOk _ => "STATUS.OK"
  | .statusReturnBeforeInventoryFinished _ => "STATUS.ReturnBeforeInventoryFinished"
  | .statusScanTimeOverflow _ => "STATUS.ScanTimeOverflow"
  | .statusMoreData _ => "STATUS.MoreData"
  | .statusAccessPasswordError _ => "STATUS.AccessPasswordError"
  | .statusKillTagError _ => "STATUS.KillTagError"
  | .statusKillPasswordZero _ => "STATUS.KillPasswordZero"
  | .statusCommandNotSupported _ => "STATUS.CommandNotSupported"
  | .statusPoorCommunication _ => "STATUS.PoorCommunication"
  | .statusNoTags _ => "STATUS.NoTags"
  | .statusWrongLength _ => "STATUS.WrongLength"
  | .statusIllegalCommand _ => "STATUS.IllegalCommand"
  | .statusParameterError _ => "STATUS.ParameterError"
  | .statusOther10 _ => "STATUS.Other_10"
  | .statusOther11 _ => "STATUS.Other_11"
  | .statusOther12 _ => "STATUS.Other_12"
  | .statusOtherF9 _ => "STATUS.Other_F9"
  | .statusUnknown _ _ => "STATUS.unknown"
  | .crcInit => "CRC.INIT"
  | .crcUpdate _ => "CRC.UPDATE"
  | .crcRead => "CRC.READ"
  | .cfgAddr _ => "CFG.ADDR"
  | .txClear => "TX.CLEAR"
  | .txPush _ => "TX.PUSH"
  | .xchgStart _ => "XCHG.START"
  | .xchgAck => "XCHG.ACK"
  | .rdPhase => "RD.PHASE"
  | .rdResult => "RD.RESULT"
  | .rdStatus => "RD.STATUS"
  | .rdAddr => "RD.ADDR"
  | .rdRxlen => "RD.RXLEN"
  | .rdTxlen => "RD.TXLEN"
  | .rdRsp _ => "RD.RSP"
  | .chTxbyte => "CH.TXBYTE"
  | .chRxbyteLength _ => "CH.RXBYTE.length"
  | .chRxbyteBody _ => "CH.RXBYTE.body"
  | .chIoerr => "CH.IOERR"
  | .validate => "VALIDATE"
  | .reset => "RESET"
  | .pseudoCrc _ => "crc"
  | .pseudoXchg _ _ => "xchg"
  | .readerInformation => "reader_information"
  | .inventory => "inventory"
  | .readData _ => "read_data"
  | .writeData _ => "write_data"
  | .kill _ => "kill"

/-- A byte operand in decimal (R89 allows decimal or hexadecimal). -/
def writtenByte (b : Byte) : String := toString b.toNat

/-- The written form of a host operation or an event: the mnemonic of R79 in lower case, then the operand
after a space; an event's byte as the operand of `ch.rxbyte` (R89). The other rows are written by their
name alone. -/
def written (i : Instr) : String :=
  match i with
  | .crcInit => "crc.init"
  | .crcUpdate b => "crc.update " ++ writtenByte b
  | .crcRead => "crc.read"
  | .cfgAddr a => "cfg.addr " ++ writtenByte a
  | .txClear => "tx.clear"
  | .txPush b => "tx.push " ++ writtenByte b
  | .xchgStart op => "xchg.start " ++ writtenByte op
  | .xchgAck => "xchg.ack"
  | .rdPhase => "rd.phase"
  | .rdResult => "rd.result"
  | .rdStatus => "rd.status"
  | .rdAddr => "rd.addr"
  | .rdRxlen => "rd.rxlen"
  | .rdTxlen => "rd.txlen"
  | .rdRsp k => "rd.rsp " ++ writtenByte k
  | .chTxbyte => "ch.txbyte"
  | .chRxbyteLength b => "ch.rxbyte " ++ writtenByte b
  | .chRxbyteBody b => "ch.rxbyte " ++ writtenByte b
  | .chIoerr => "ch.ioerr"
  | .validate => "validate"
  | .reset => "reset"
  | i => mnemonic i

end Sys2Proof
end

