-- ==== Sys2Proof/Tests/Slice0.lean ====
section
/-! SUPPORT. Tests. Expected values are the document's own examples (95_test_vectors.md part 1), the vectors of
its part 2 and the programs of its part 3; then, for every statement with hypotheses, a witness that meets them. -/

namespace Sys2Proof.Tests

/- One proof after another: a thread for each would need more memory than the check allows. -/
set_option Elab.async false

open Sys2Proof Sys2Proof.Machine

/-! ## Helpers -/

/-- The reset state in another phase. -/
def inPh (ph : Phase) : State := { State.reset with phase := ph }

/-- What a test looks at of an outcome. -/
def seen {α : Type} (r : Result) (f : State → α) : Option α :=
  match r with
  | .next s => some (f s)
  | .fault _ => none
  | .refused _ => none

/-- The EPC of the vectors. -/
def epc₀ : List Byte := [0xE2, 0x00, 0x12, 0x34]

/-- The password of the vectors. -/
def pw₀ : List Byte := [0x11, 0x22, 0x33, 0x44]

def read₀ : ReadCommand := ⟨epc₀, .epc, 2, 6, none, none, none⟩
def write₀ : WriteCommand := ⟨epc₀, .user, 0, [0xDE, 0xAD, 0xBE, 0xEF], some pw₀, none, none⟩
def kill₀ : KillCommand := ⟨epc₀, some pw₀, none, none⟩

/-- V-FSM row 1 just before VALIDATE. -/
def validating₀ : State :=
  { inPh .validating with
    txop := 0x01, txidx := 5, rxlen := 5, rxcnt := 6, crc := 0x3DF2
    rxbuf := [(0, 5), (1, 0), (2, 1), (3, 0xFB), (4, 0xF2), (5, 0x3D)] }

/-- V-FSM row 1 at its end. -/
def success₀ : State := { validating₀ with phase := .success, resStatus := 0xFB }

/-- P6 after the channel error. -/
def failed₀ : State := { inPh .failed with txop := 0x21, resClass := .io, resCause := .channelError }

/-! ## WellFormed: an ill-formed term for each check -/

theorem smoke_odd_epc : Instr.wf Params.defaults (.readData { read₀ with epc := [0xE2, 0, 0x12] }) = false := by
  decide
theorem smoke_odd_data : Instr.wf Params.defaults (.writeData { write₀ with data := [0xDE] }) = false := by decide
theorem smoke_password_of_three : Instr.wf Params.defaults (.kill { kill₀ with password := some [1, 2, 3] }) = false := by
  decide
theorem smoke_password_of_zeros :
    Instr.wf Params.defaults (.cmdKillTag 0 { kill₀ with password := some [0, 0, 0, 0] }) = false := by decide
theorem smoke_half_mask : Instr.wf Params.defaults (.readData { read₀ with maskAddress := some 0x20 }) = false := by
  decide
theorem smoke_too_long :
    Instr.wf Params.defaults (.cmdReadData 0 { read₀ with epc := List.replicate 244 0 }) = false := by decide +kernel
theorem smoke_length_byte : Instr.wf Params.defaults (.statusOk ⟨6, 0, 1, [0xF2, 0x3D]⟩) = false := by decide
theorem smoke_no_trailer : Instr.wf Params.defaults (.statusOk ⟨4, 0, 1, [0xF2]⟩) = false := by decide
theorem smoke_not_other :
    Instr.wf { Params.defaults with statusOther := [] } (.statusOther10 ⟨5, 0, 1, [0, 0]⟩) = false := by decide
theorem smoke_not_unknown : Instr.wf Params.defaults (.statusUnknown 0xFB ⟨5, 0, 1, [0, 0]⟩) = false := by decide
theorem smoke_no_operation : Instr.wf Params.defaults (.pseudoXchg 0x04 []) = false := by decide
theorem smoke_payload_too_long : Instr.wf Params.defaults (.pseudoXchg 0x02 (List.replicate 252 0)) = false := by
  decide +kernel

/-! ## Decoding: a word for every constructor that has one, from R71, R72, R76, R77, R79 -/

/-- The rows of R79, with V-HOST's operands. -/
theorem test_decode_host :
    ([0x0100, 0x0261, 0x0300, 0x100A, 0x1100, 0x12E2, 0x1321, 0x1400, 0x2000, 0x2100, 0x2200, 0x2300, 0x2400,
      0x2500, 0x2604].map fun w => decodeTableWord 16 w) =
    [some .crcInit, some (.crcUpdate 0x61), some .crcRead, some (.cfgAddr 10), some .txClear,
     some (.txPush 0xE2), some (.xchgStart 0x21), some .xchgAck, some .rdPhase, some .rdResult, some .rdStatus,
     some .rdAddr, some .rdRxlen, some .rdTxlen, some (.rdRsp 4)] := by decide +kernel

/-- V-HOST: unassigned selectors, and an ignored operand. -/
theorem test_decode_unassigned :
    ([0x0000, 0x0400, 0x1500, 0x2700, 0xFF00].map fun w => decodeTableWord 16 w) = [none, none, none, none, none]
    ∧ decodeTableWord 16 0x03A5 = some .crcRead := by decide +kernel

/-- V-ENC rows 1 and 2, V-BLD rows 1 to 4: the command frames. -/
theorem test_decode_cmd :
    ([[0x04, 0x0A, 0x01, 0xAB, 0xB6],
      [0x10, 0x00, 0x02, 0x02, 0xE2, 0x00, 0x12, 0x34, 0x01, 0x02, 0x06, 0x00, 0x00, 0x00, 0x00, 0xE2, 0x4D],
      [0x12, 0x00, 0x02, 0x02, 0xE2, 0x00, 0x12, 0x34, 0x02, 0x00, 0x04, 0xDE, 0xAD, 0xBE, 0xEF, 0x20, 0x10, 0xDE, 0xDC],
      [0x14, 0x00, 0x03, 0x02, 0x02, 0xE2, 0x00, 0x12, 0x34, 0x03, 0x00, 0xDE, 0xAD, 0xBE, 0xEF, 0x11, 0x22, 0x33,
       0x44, 0xF2, 0x65],
      [0x0D, 0x00, 0x05, 0x02, 0xE2, 0x00, 0x12, 0x34, 0x11, 0x22, 0x33, 0x44, 0x77, 0x43],
      [0x04, 0x00, 0x21, 0xD9, 0x6A]].map fun f => decode Params.defaults .cmd f) =
    [.ok (.cmdInventory 10), .ok (.cmdReadData 0 read₀),
     .ok (.cmdReadData 0 ⟨epc₀, .tid, 0, 4, some [0xDE, 0xAD, 0xBE, 0xEF], some 0x20, some 0x10⟩),
     .ok (.cmdWriteData 0 write₀), .ok (.cmdKillTag 0 kill₀), .ok (.cmdGetReaderInformation 0)] := by
  decide +kernel

/-- R71, R85: a header of no operation, and a frame that is none. -/
theorem test_decode_cmd_refused :
    decode Params.defaults .cmd [0x04, 0x0A, 0x01, 0xAB, 0xB7] = .error (.notAFrame ⟨.program, .badCrc⟩)
    ∧ decode Params.defaults .cmd [0x07, 0x00, 0x77, 0x01, 0x02, 0x03, 0x32, 0x42] = .error (.notAnOperation 0x77) := by
  decide +kernel

/-- R77: the 18 RSP rows as header words, under the default table. -/
theorem test_decode_rsp :
    ([0x00, 0x01, 0x02, 0x03, 0x05, 0x09, 0x0A, 0x0B, 0xFA, 0xFB, 0xFD, 0xFE, 0xFF, 0x10, 0x11, 0x12, 0xF9, 0x77].map
      fun b => decode Params.defaults .rsp [5, 0, 1, b, 0xF2, 0x3D]) =
    ([.statusOk, .statusReturnBeforeInventoryFinished, .statusScanTimeOverflow, .statusMoreData,
      .statusAccessPasswordError, .statusKillTagError, .statusKillPasswordZero, .statusCommandNotSupported,
      .statusPoorCommunication, .statusNoTags, .statusWrongLength, .statusIllegalCommand, .statusParameterError,
      .statusOther10, .statusOther11, .statusOther12, .statusOtherF9, .statusUnknown 0x77].map
      fun row : RspFrame → Instr => Except.ok (ε := DecodeError) (row ⟨5, 0, 1, [0xF2, 0x3D]⟩)) := by decide +kernel

/-- The table's own words of a CMD and an RSP row: operand bytes of zero (log 11). -/
theorem test_decode_table_frames :
    decodeTableWord 24 0x210000 = some (.cmdGetReaderInformation 0)
    ∧ decodeTableWord 32 0xFB000000 = some (.statusNoTags ⟨0, 0, 0, []⟩) := by decide +kernel

/-- R89: the written form. -/
theorem test_written : [written (.crcUpdate 0x61), written .rdPhase, written (.chRxbyteBody 5)]
    = ["crc.update 97", "rd.phase", "ch.rxbyte 5"] := by decide +kernel

/-! ## CRC: V-CRC and S1 -/

theorem test_crc_vectors :
    ([[], [0x00], [0xFF], [0x01], [0x80], [0x61], [0x61, 0x62], [0x61, 0x62, 0x63, 0x64, 0x65, 0x66],
      [0x31, 0x32, 0x33, 0x34, 0x35, 0x36, 0x37, 0x38, 0x39], [0, 0], [0xFF, 0xFF], [0x04, 0x0A, 0x01],
      [0x05, 0x00, 0x01, 0xFB], [0x61, 0x62, 0x63, 0x64, 0x65, 0x66, 0x09, 0xFB],
      [0x61, 0x62, 0x63, 0x64, 0x65, 0x66, 0xFB, 0x09]].map crc) =
    [0xFFFF, 0x0F87, 0x00FF, 0x1E0E, 0x8B8F, 0x7D08, 0xCC21, 0xFB09, 0x6F91, 0xF0B8, 0x0000, 0xB6AB, 0x3DF2, 0x0000,
     0x9B25] := by decide +kernel

set_option maxRecDepth 100000 in
theorem test_crc_every_byte :
    crc ((List.range 256).map (BitVec.ofNat 8)) = 0xCFC3 ∧ crc (List.replicate 251 0) = 0xD7DB := by decide +kernel

theorem test_crc_steps :
    [crcByte 0xFFFF 0xFF, crcByte 0xF80F 0, crcByte 0x1234 0x56, crcByteTable 0x1234 0x56, crcByteShift 0x1234 0x56]
    = [0x00FF, 0xF80F, 0x4006, 0x4006, 0x4006] := by decide +kernel

/-- P1, the pseudo-operation `crc "abcdef"`. -/
theorem test_pseudo_crc :
    seen (exec (.pseudoCrc [0x61, 0x62, 0x63, 0x64, 0x65, 0x66]) State.reset) (fun s => (s.crc, s.answer))
    = some (0xFB09, some ⟨.ok, 0xFB09⟩) := by decide +kernel

/-! ## Framer, parser, classifier: V-ENC, V-DEC, V-CLS -/

set_option maxRecDepth 100000 in
theorem test_encode_frame_longest :
    encodeFrame 1 3 ((List.range 251).map (BitVec.ofNat 8))
      = .ok ([0xFF, 0x01, 0x03] ++ (List.range 251).map (BitVec.ofNat 8) ++ [0x9D, 0x5B])
    ∧ encodeFrame 0 2 (List.replicate 252 0) = .error ⟨.program, .payloadTooLong⟩ := by decide +kernel

theorem test_encode_frame_any_code :
    encodeFrame 0 0x77 [1, 2, 3] = .ok [0x07, 0x00, 0x77, 0x01, 0x02, 0x03, 0x32, 0x42] := by decide +kernel

/-- V-ENC rows 1 and 8 for `encode_command`. -/
theorem test_encode_command :
    encodeCommand 0x0A .inventory [] = .ok [0x04, 0x0A, 0x01, 0xAB, 0xB6]
    ∧ encodeCommand 0 .readData (List.replicate 252 0) = .error ⟨.program, .payloadTooLong⟩ := by decide +kernel

/-- R70: byte 3 of the header word is the status where there is one, and 0 where the trailer follows at once. -/
theorem test_header_word :
    headerWord [0x05, 0x00, 0x01, 0xFB, 0xF2, 0x3D] = 0xFB010005
    ∧ headerWord [0x04, 0x0A, 0x01, 0xAB, 0xB6] = 0x00010A04 := by decide +kernel

/-- V-DEC rows 2 to 9. -/
theorem test_decode_response_errors :
    ([[0x04, 0x0A, 0x01, 0xAB, 0xB6], [0x05, 0x00, 0x01, 0xFB, 0xF2, 0x3C], [0x06, 0x00, 0x01, 0xFB, 0xF2, 0x3D], [],
      [0x00], [0x03, 0x00, 0x01, 0xAA], [0x05, 0x00, 0x01, 0x77, 0x96, 0x73],
      [0x05, 0x00, 0x01, 0x77, 0x96, 0x00]].map fun f =>
        match decodeResponse Params.defaults f with
        | .ok _ => none
        | .error e => some e) =
    [some ⟨.program, .badLength⟩, some ⟨.program, .badCrc⟩, some ⟨.program, .badLength⟩,
     some ⟨.program, .badLength⟩, some ⟨.program, .badLength⟩, some ⟨.program, .badLength⟩,
     some ⟨.program, .unknownStatus⟩, some ⟨.program, .badCrc⟩] := by decide +kernel

/-- V-DEC rows 10 and 12. -/
theorem test_decode_response :
    decodeResponse Params.defaults [0x09, 0x00, 0x02, 0x00, 0x12, 0x34, 0x56, 0x78, 0x29, 0xBF]
      = .ok ⟨0, 2, .named .ok, [0x12, 0x34, 0x56, 0x78]⟩
    ∧ decodeResponse Params.defaults [0x0D, 7, 0x21, 0, 1, 9, 9, 2, 0x3E, 0, 0x1E, 0x0A, 0x8C, 0x84]
      = .ok ⟨7, 0x21, .named .ok, [1, 9, 9, 2, 0x3E, 0, 0x1E, 0x0A]⟩ := by decide +kernel

/-- V-CLS. -/
theorem test_classify :
    ([0x03, 0x05, 0x0B, 0xFA, 0xFB, 0xFD, 0x10, 0xF9, 0x04, 0xFC].map fun b =>
      (statusDecode Params.defaults b).map classify) =
    [some .success, some .protocol, some .protocol, some .communication, some .communication, some .program,
     some .program, some .program, none, none] := by decide +kernel

/-! ## Payload parsers: V-INV and V-RI -/

theorem test_parse_inventory :
    ([[], [0], [0, 9, 9], [1], [1, 0], [1, 2, 0xAA], [2, 1, 0xAA, 1, 0xBB, 0xCC],
      [2, 4, 0xAA, 0xBB, 0xCC, 0xDD, 4, 0x11, 0x22, 0x33, 0x44], [3, 1, 1, 1, 2]].map
        fun p => (parseInventory (some (.named .ok)) p).toOption) =
    [none, some [], some [], none, some [[]], none, some [[0xAA], [0xBB]],
     some [[0xAA, 0xBB, 0xCC, 0xDD], [0x11, 0x22, 0x33, 0x44]], none] := by decide +kernel

theorem test_parse_reader_information :
    parseReaderInformation [1, 9, 9, 2, 0x3E, 0, 0x1E, 0x0A]
      = .ok { version := [1, 9], readerType := 9, protocols := 2, maxFrequency := 0x3E, minFrequency := 0
              power := 0x1E, scanTime := 0x0A }
    ∧ parseReaderInformation [1, 9, 9, 2, 0x3E, 0, 0x1E] = .error ⟨.program, .badPayload⟩ := by decide +kernel

/-! ## Single steps of the programs P1 to P8 -/

theorem test_crc_init : seen (exec .crcInit { State.reset with crc := 0x7D08 }) (·.crc) = some 0xFFFF := by
  decide +kernel
theorem test_crc_update : seen (exec (.crcUpdate 0x61) State.reset) (·.crc) = some 0x7D08 := by decide +kernel
theorem test_crc_update_refused : seen (exec (.crcUpdate 0x62) (inPh .sending)) (fun s => (s.crc, s.answer))
    = some (0xFFFF, some ⟨.refused, 0⟩) := by decide +kernel
theorem test_crc_read : seen (exec .crcRead { State.reset with crc := 0x4F93 }) (·.answer)
    = some (some ⟨.ok, 0x4F93⟩) := by decide +kernel
theorem test_cfg_addr : seen (exec (.cfgAddr 10) State.reset) (fun s => (s.addr, s.answer))
    = some (10, some ⟨.ok, 0⟩) := by decide +kernel
theorem test_tx_clear : seen (exec .txClear { State.reset with txlen := 252 }) (·.txlen) = some 0 := by decide +kernel
theorem test_tx_push : seen (exec (.txPush 2) State.reset) (fun s => (s.txbuf, s.txlen)) = some ([(0, 2)], 1) := by
  decide +kernel
theorem test_tx_push_overflow : seen (exec (.txPush 2) { State.reset with txlen := 251 }) (fun s => (s.txbuf, s.txlen))
    = some ([], 252) := by decide +kernel
theorem test_xchg_start : seen (exec (.xchgStart 1) { State.reset with crc := 0x7D08 })
    (fun s => (s.phase, s.txop, s.crc)) = some (.sending, 1, 0xFFFF) := by decide +kernel
theorem test_xchg_start_illegal : seen (exec (.xchgStart 4) { State.reset with txlen := 252 })
    (fun s => (s.phase, s.txop, resultWord s)) = some (.failed, 4, 0x0411) := by decide +kernel
theorem test_xchg_ack : seen (exec .xchgAck failed₀) (fun s => (s.phase, resultWord s, s.crc))
    = some (.idle, 0x0000, 0xFFFF) := by decide +kernel
theorem test_rd_phase : seen (exec .rdPhase success₀) (·.answer) = some (some ⟨.ok, 5⟩) := by decide +kernel
theorem test_rd_result : seen (exec .rdResult failed₀) (·.answer) = some (some ⟨.ok, 0x0101⟩) := by decide +kernel
theorem test_rd_status : seen (exec .rdStatus success₀) (·.answer) = some (some ⟨.ok, 0xFB⟩) := by decide +kernel
theorem test_rd_addr : seen (exec .rdAddr { State.reset with addr := 10 }) (·.answer) = some (some ⟨.ok, 10⟩) := by
  decide +kernel
theorem test_rd_rxlen : seen (exec .rdRxlen success₀) (·.answer) = some (some ⟨.ok, 5⟩)
    ∧ seen (exec .rdRxlen failed₀) (·.answer) = some (some ⟨.refused, 0⟩) := by decide +kernel
theorem test_rd_txlen : seen (exec .rdTxlen { State.reset with txlen := 252 }) (·.answer) = some (some ⟨.ok, 252⟩) := by
  decide +kernel
/-- R34: the length of the payload is a view of phase Success only. -/
theorem test_rsp_payload_len :
    rspPayloadLen { success₀ with rxlen := 9 } = some 4 ∧ rspPayloadLen validating₀ = none := by decide +kernel
theorem test_rd_rsp : seen (exec (.rdRsp 3) success₀) (·.answer) = some (some ⟨.ok, 0xFB⟩)
    ∧ seen (exec (.rdRsp 4) success₀) (·.answer) = some (some ⟨.range, 0⟩) := by decide +kernel

/-- P2, the fourth and the fifth byte: the trailer, low byte first; then the block awaits. -/
theorem test_ch_txbyte :
    seen (exec .chTxbyte { inPh .sending with addr := 10, txop := 1, txidx := 3, crc := 0xB6AB })
      (fun s => (s.txStream, s.txidx, s.crc, s.phase)) = some ([0xAB], 4, 0xB6AB, .sending)
    ∧ seen (exec .chTxbyte { inPh .sending with addr := 10, txop := 1, txidx := 4, crc := 0xB6AB })
      (fun s => (s.txStream, s.txidx, s.crc, s.phase)) = some ([0xB6], 5, 0xFFFF, .awaitingLength) := by decide +kernel

/-- P2: the length byte. V-FSM row 8: a length byte of 0. -/
theorem test_ch_rxbyte_length :
    seen (exec (.chRxbyteLength 5) (inPh .awaitingLength)) (fun s => (s.rxlen, s.rxcnt, s.crc, s.phase))
      = some (5, 1, 0x582A, .awaitingBody)
    ∧ seen (exec (.chRxbyteLength 0) (inPh .awaitingLength)) (fun s => (s.rxlen, s.rxcnt, s.crc, s.phase))
      = some (0, 1, 0xFFFF, .validating) := by decide +kernel

/-- P2: the status byte enters the CRC, the last byte does not. -/
theorem test_ch_rxbyte_body :
    seen (exec (.chRxbyteBody 0xFB) { inPh .awaitingBody with rxlen := 5, rxcnt := 3, crc := 0x1107 })
      (fun s => (s.rxcnt, s.crc, s.phase)) = some (4, 0x3DF2, .awaitingBody)
    ∧ seen (exec (.chRxbyteBody 0x3D) { inPh .awaitingBody with rxlen := 5, rxcnt := 5, crc := 0x3DF2 })
      (fun s => (s.rxcnt, s.crc, s.phase)) = some (6, 0x3DF2, .validating) := by decide +kernel

/-- P6: the error counts in AwaitingBody and is dropped in Failed. -/
theorem test_ch_ioerr :
    seen (exec .chIoerr (inPh .awaitingBody)) (fun s => (s.phase, resultWord s)) = some (.failed, 0x0101)
    ∧ exec .chIoerr (inPh .idle) = .next (inPh .idle) := by
  refine ⟨by decide +kernel, rfl⟩

/-- P2 and P3. -/
theorem test_validate :
    seen (exec .validate validating₀) (fun s => (s.phase, s.resStatus)) = some (.success, 0xFB)
    ∧ seen (exec .validate { validating₀ with rxbuf := validating₀.rxbuf.write 5 0x3C })
      (fun s => (s.phase, resultWord s, s.resStatus)) = some (.failed, 0x0421, 0) := by decide +kernel

theorem test_reset : seen (exec .reset success₀) (fun s => (s.phase, s.crc, s.rxlen, s.resStatus))
    = some (.idle, 0xFFFF, 0, 0) := by decide +kernel

/-! ## Whole commands, responses and pseudo-operations: V-ENC, V-BLD, V-FSM -/

theorem test_cmd_inventory : seen (exec (.cmdInventory 10) State.reset) (fun s => (s.txStream, s.phase))
    = some ([0x04, 0x0A, 0x01, 0xAB, 0xB6], .awaitingLength) := by decide +kernel
theorem test_cmd_read : seen (exec (.cmdReadData 0 read₀) State.reset) (·.txStream)
    = some [0x10, 0x00, 0x02, 0x02, 0xE2, 0x00, 0x12, 0x34, 0x01, 0x02, 0x06, 0, 0, 0, 0, 0xE2, 0x4D] := by
  decide +kernel
theorem test_cmd_write : seen (exec (.cmdWriteData 0 write₀) State.reset) (·.txStream)
    = some [0x14, 0x00, 0x03, 0x02, 0x02, 0xE2, 0x00, 0x12, 0x34, 0x03, 0x00, 0xDE, 0xAD, 0xBE, 0xEF, 0x11, 0x22,
      0x33, 0x44, 0xF2, 0x65] := by decide +kernel
theorem test_cmd_kill : seen (exec (.cmdKillTag 0 kill₀) State.reset) (·.txStream)
    = some [0x0D, 0x00, 0x05, 0x02, 0xE2, 0x00, 0x12, 0x34, 0x11, 0x22, 0x33, 0x44, 0x77, 0x43] := by decide +kernel
theorem test_cmd_reader_information : seen (exec (.cmdGetReaderInformation 0) State.reset) (·.txStream)
    = some [0x04, 0x00, 0x21, 0xD9, 0x6A] := by decide +kernel

/-- V-FSM rows 1, 2, 3, 4, 5, 6, 7, 11: responses to the operation sent, as each RSP row. -/
theorem test_responses :
    ([(0x01, Instr.statusNoTags ⟨5, 0, 1, [0xF2, 0x3D]⟩), (0x02, .statusNoTags ⟨5, 0, 2, [0x9A, 0x17]⟩),
      (0x02, .statusOk ⟨9, 0, 2, [0x12, 0x34, 0x56, 0x78, 0x29, 0xBF]⟩),
      (0x05, .statusAccessPasswordError ⟨5, 0, 5, [0x63, 0x44]⟩), (0x01, .statusUnknown 0x77 ⟨5, 0, 1, [0x96, 0x73]⟩),
      (0x03, .statusParameterError ⟨5, 0, 3, [0x66, 0x48]⟩), (0x03, .statusOtherF9 ⟨5, 0, 3, [0x50, 0x2D]⟩),
      (0x01, .statusUnknown 0x77 ⟨5, 0, 1, [0x96, 0x00]⟩),
      (0x01, .statusMoreData ⟨9, 0, 1, [0x01, 0x02, 0xAB, 0xCD, 0xD5, 0x36]⟩)].map fun (op, i) =>
        seen (exec i { inPh .awaitingLength with txop := op }) fun s => (phaseCode s.phase, resultWord s, s.resStatus))
    = [some (5, 0x0000, 0xFB), some (6, 0x0202, 0xFB), some (5, 0x0000, 0x00), some (6, 0x0302, 0x05),
       some (6, 0x0422, 0x77), some (6, 0x0402, 0xFF), some (6, 0x0402, 0xF9), some (6, 0x0421, 0x00),
       some (5, 0x0000, 0x03)] := by decide +kernel

/-- P2 and P3 as the pseudo-operation `inventory`. -/
theorem test_inventory :
    seen (exec .inventory { State.reset with addr := 10, rxStream := [0x05, 0x00, 0x01, 0xFB, 0xF2, 0x3D] })
      (fun s => (s.result, s.phase, s.txidx, s.rxcnt)) = some (some (.tags []), .idle, 5, 6)
    ∧ seen (exec .inventory { State.reset with addr := 10, rxStream := [0x05, 0x00, 0x01, 0xFB, 0xF2, 0x3C] })
      (·.result) = some (some (.error .program .badCrc (some 0))) := by decide +kernel

/-- P4 as `inventory`. -/
theorem test_inventory_two_tags :
    seen (exec .inventory { State.reset with
        rxStream := [0x10, 0x00, 0x01, 0x00, 0x02, 0x04, 0xAA, 0xBB, 0xCC, 0xDD, 0x04, 0x11, 0x22, 0x33, 0x44, 0xA3, 0x75] })
      (·.result) = some (some (.tags [[0xAA, 0xBB, 0xCC, 0xDD], [0x11, 0x22, 0x33, 0x44]])) := by decide +kernel

/-- P5 and its variant as `kill`. -/
theorem test_kill :
    seen (exec (.kill kill₀) { State.reset with rxStream := [0x05, 0x00, 0x05, 0x00, 0xCE, 0x13] }) (·.result)
      = some (some .unit)
    ∧ seen (exec (.kill kill₀) { State.reset with rxStream := [0x05, 0x00, 0x05, 0x05, 0x63, 0x44] }) (·.result)
      = some (some (.error .protocol .status (some 0x05))) := by decide +kernel

/-- P6 with the whole response, as `reader_information`. -/
theorem test_reader_information :
    seen (exec .readerInformation { State.reset with
        rxStream := [0x0D, 0x00, 0x21, 0x00, 0x01, 0x09, 0x09, 0x02, 0x3E, 0x00, 0x1E, 0x0A, 0x6A, 0x24] }) (·.result)
      = some (some (.info ⟨[1, 9], 9, 2, 0x3E, 0, 0x1E, 0x0A⟩)) := by decide +kernel

/-- V-FSM row 3 as `read_data`, row 6 as `write_data`. -/
theorem test_read_data :
    seen (exec (.readData read₀) { State.reset with
        rxStream := [0x09, 0x00, 0x02, 0x00, 0x12, 0x34, 0x56, 0x78, 0x29, 0xBF] }) (·.result)
      = some (some (.data [0x12, 0x34, 0x56, 0x78])) := by decide +kernel
theorem test_write_data :
    seen (exec (.writeData write₀) { State.reset with rxStream := [0x05, 0x00, 0x03, 0xFF, 0x66, 0x48] }) (·.result)
      = some (some (.error .program .status (some 0xFF))) := by decide +kernel

/-- V-FSM rows 8 and 14 as `xchg`. -/
theorem test_xchg :
    seen (exec (.pseudoXchg 1 []) { State.reset with rxStream := [0x00, 0x07] }) (fun s => (s.result, s.rxStream))
      = some (some (.error .program .badLength (some 0)), [0x07])
    ∧ seen (exec (.pseudoXchg 2 (List.replicate 252 0)) State.reset) (fun s => (s.result, s.txStream))
      = some (some (.error .program .payloadTooLong (some 0)), []) := by decide +kernel

/-! ## Steps -/

/-- R217: a channel error offered with the last byte of a response fails the exchange; the byte stays. -/
theorem test_step_precedence :
    seen (step { inPh .awaitingBody with
        rxlen := 1, rxcnt := 1, moments := [⟨false, true, true, true, [0x3D], none, none⟩] })
      (fun s => (s.phase, resultWord s, s.rxStream)) = some (.failed, 0x0101, [0x3D]) := by decide +kernel

/-- The moment that offers a host word and nothing else. -/
def wordMoment (w : Word) : Moment := ⟨false, false, true, true, [], none, some (.word w)⟩

/-- R87: an unassigned selector. -/
theorem test_step_illegal :
    seen (step { State.reset with moments := [wordMoment 0x1500] })
      (·.answer) = some (some ⟨.illegal, 0⟩) := by decide +kernel

/-- The moment that offers bytes as a command frame and nothing else. -/
def commandMoment (bytes : List Byte) : Moment := ⟨false, false, true, true, [], none, some (.command bytes)⟩

/-- R124: a frame whose payload no builder makes (V-DEC row 1 read as a command) leaves as it is; V-ENC row 5:
one whose code is outside the five fails and nothing leaves; V-DEC row 3: bytes that are no frame. -/
theorem test_step_offered_frames :
    seen (step { State.reset with moments := [commandMoment [0x05, 0x00, 0x01, 0xFB, 0xF2, 0x3D]] })
      (fun s => (s.txStream, s.phase)) = some ([0x05, 0x00, 0x01, 0xFB, 0xF2, 0x3D], .awaitingLength)
    ∧ seen (step { State.reset with moments := [commandMoment [0x07, 0x00, 0x77, 0x01, 0x02, 0x03, 0x32, 0x42]] })
      (fun s => (s.txStream, resultWord s, s.txlen)) = some ([], 0x0411, 3)
    ∧ seen (step { State.reset with moments := [commandMoment [0x05, 0x00, 0x01, 0xFB, 0xF2, 0x3C]] })
      (fun s => (s.result, s.phase, s.answer)) = some (some (.error .program .badCrc none), .idle, none) := by
  decide +kernel

/-- A word of the opcode table runs as the first instruction after reset. -/
theorem test_step_table_word :
    seen (step (State.reset.withFetchWord 16 0x0261)) (·.crc) = some 0x7D08
    ∧ seen (step (State.reset.withFetchWord 24 0x010000)) (·.txStream) = some [0x04, 0x00, 0x01, 0xDB, 0x4B] := by
  decide +kernel

/-! ## Witnesses: states of the invariant -/

theorem inv_validating₀ : Inv validating₀ where
  txlenBound := by decide
  staged := by intro i h; exact absurd h (by simp [validating₀, inPh, State.reset])
  sending := by intro h; exact absurd h (by decide)
  awaitingLength := by intro h; exact absurd h (by decide)
  awaitingBody := by intro h; exact absurd h (by decide)
  validating := by
    intro _
    refine ⟨by decide, by decide +kernel, by decide, by decide +kernel⟩
  success := by intro h; exact absurd h (by decide)
  failed := by decide
  recorded := by intro h; exact absurd rfl h
  noCause := by intro _; rfl
  noStatus := by intros; rfl
  txbufForm := rfl
  rxbufForm := by decide

theorem inv_success₀ : Inv success₀ where
  txlenBound := by decide
  staged := by intro i h; exact absurd h (by simp [success₀, validating₀, inPh, State.reset])
  sending := by intro h; exact absurd h (by decide)
  awaitingLength := by intro h; exact absurd h (by decide)
  awaitingBody := by intro h; exact absurd h (by decide)
  validating := by intro h; exact absurd h (by decide)
  success := by
    intro _
    refine ⟨by decide, by decide, ⟨by decide +kernel, by decide, by decide +kernel⟩, by decide, by decide, ?_⟩
    exact ⟨.named .noTags, by decide +kernel, .inr ⟨rfl, rfl⟩⟩
  failed := by decide
  recorded := by intro h; exact absurd rfl h
  noCause := by intro _; rfl
  noStatus := by intro h; exact absurd rfl h
  txbufForm := rfl
  rxbufForm := by decide

theorem inv_failed₀ : Inv failed₀ where
  txlenBound := by decide
  staged := by intro i h; exact absurd h (by simp [failed₀, inPh, State.reset])
  sending := by intro h; exact absurd h (by decide)
  awaitingLength := by intro h; exact absurd h (by decide)
  awaitingBody := by intro h; exact absurd h (by decide)
  validating := by intro h; exact absurd h (by decide)
  success := by intro h; exact absurd h (by decide)
  failed := by decide
  recorded := by intro _; decide
  noCause := by intro h; exact absurd h (by decide)
  noStatus := by intros; rfl
  txbufForm := rfl
  rxbufForm := rfl

/-- A response whose length byte is 0, taken whole (V-FSM row 8 just before VALIDATE). -/
def tooShort₀ : State := { inPh .validating with txop := 0x01, txidx := 5, rxlen := 0, rxcnt := 1, rxbuf := [(0, 0)] }

theorem inv_tooShort₀ : Inv tooShort₀ where
  txlenBound := by decide
  staged := by intro i h; exact absurd h (by simp [tooShort₀, inPh, State.reset])
  sending := by intro h; exact absurd h (by decide)
  awaitingLength := by intro h; exact absurd h (by decide)
  awaitingBody := by intro h; exact absurd h (by decide)
  validating := by
    intro _
    refine ⟨by decide, by decide +kernel, by decide, by decide +kernel⟩
  success := by intro h; exact absurd h (by decide)
  failed := by decide
  recorded := by intro h; exact absurd rfl h
  noCause := by intro _; rfl
  noStatus := by intros; rfl
  txbufForm := rfl
  rxbufForm := rfl

theorem witness_Inv : Inv validating₀ ∧ Inv success₀ ∧ Inv failed₀ := ⟨inv_validating₀, inv_success₀, inv_failed₀⟩

/-! ## Witnesses: the hypotheses of each statement, clause by clause, at boundary values -/

/-- In Idle a moment without reset, channel error and response frame is the host's. -/
theorem hostFirst_of_idle (s : State) (m : Moment) (hp : s.phase = .idle) (h₁ : m.rst = false)
    (h₂ : m.ioErr = false) (h₃ : m.frame = none) : HostFirst s m :=
  ⟨h₁, h₂, h₃, fun _ => by simp [hp], fun _ => by simp [hp]⟩

/-- The host's turn in the other phases: nothing in the channel, a channel that takes nothing, VALIDATE placed
later. -/
theorem witness_HostFirst (o : HostOffer) :
    HostFirst (inPh .awaitingLength) ⟨false, false, true, true, [], none, some o⟩
    ∧ HostFirst (inPh .sending) ⟨false, false, false, true, [], none, some o⟩
    ∧ HostFirst validating₀ ⟨false, false, true, false, [], none, some o⟩
    ∧ HostFirst failed₀ ⟨false, false, true, true, [7], none, some o⟩ := by
  simp [HostFirst, inPh, validating₀, failed₀, State.reset]

theorem witness_CrcBitStep : (0 < 15 ∧ 0 ≠ 10 ∧ 0 ≠ 3) ∧ (14 < 15 ∧ 14 ≠ 10 ∧ 14 ≠ 3) := by decide
theorem witness_CrcTablePrinted : 255 < 256 := by decide
theorem witness_CrcProperties :
    crc ([0x61, 0x62, 0x63, 0x64, 0x65, 0x66] ++ [0x09, 0xFB]) = 0x0000 ∧ (0xF80F : Word) ≠ 0 := by decide +kernel
theorem witness_CrcOperations :
    (hi8 0x01FF = 0x01 ∧ hi8 0x02FF = 0x02 ∧ hi8 0x03FF = 0x03) ∧ State.reset.phase = .idle
    ∧ (inPh .sending).phase ≠ .idle ∧ Instr.crcRead ∈ [Instr.crcInit, .crcUpdate 0, .crcRead] := by decide
theorem witness_CrcOfMessageByOperations : State.reset.phase = .idle := rfl
theorem witness_EncodeFrame :
    251 < (List.replicate 252 (0 : Byte)).length ∧ (List.replicate 251 (0 : Byte)).length ≤ 251
    ∧ (Operation.killTag, (0x05 : Byte)) ∈
      [(Operation.inventory, (0x01 : Byte)), (.readData, 0x02), (.writeData, 0x03), (.killTag, 0x05),
        (.getReaderInformation, 0x21)] := by decide +kernel

/-- The longest even EPC whose word count is a byte, and the shortest whose word count is not. -/
theorem witness_wordCount :
    (List.replicate 510 (0 : Byte)).length < 512 ∧ (List.replicate 510 (0 : Byte)).length % 2 = 0
    ∧ (List.replicate 512 (0 : Byte)).length % 2 = 0 := by decide +kernel
theorem witness_BuildRead :
    ({ read₀ with epc := [1] }).epc.length % 2 = 1
    ∧ (∃ pw, ({ read₀ with password := some [1, 2, 3] }).password = some pw ∧ pw.length ≠ 4)
    ∧ ({ read₀ with maskLength := some 1 }).maskAddress.isSome ≠ ({ read₀ with maskLength := some 1 }).maskLength.isSome
    ∧ (read₀.epc.length % 2 = 0 ∧ (∀ pw, read₀.password = some pw → pw.length = 4)
      ∧ read₀.maskAddress.isSome = read₀.maskLength.isSome)
    ∧ (encode Params.defaults (.cmdReadData 0 read₀)).isSome :=
  ⟨rfl, ⟨_, rfl, by decide⟩, by decide, ⟨rfl, (fun _ h => by cases h), rfl⟩, by decide +kernel⟩
theorem witness_BuildWrite :
    ({ write₀ with epc := [1] }).epc.length % 2 = 1 ∧ ({ write₀ with data := [1] }).data.length % 2 = 1
    ∧ (∃ pw, ({ write₀ with password := some [] }).password = some pw ∧ pw.length ≠ 4)
    ∧ ({ write₀ with maskAddress := some 1 }).maskAddress.isSome
        ≠ ({ write₀ with maskAddress := some 1 }).maskLength.isSome
    ∧ (write₀.epc.length % 2 = 0 ∧ write₀.data.length % 2 = 0
      ∧ (∀ pw, write₀.password = some pw → pw.length = 4) ∧ write₀.maskAddress.isSome = write₀.maskLength.isSome)
    ∧ (encode Params.defaults (.cmdWriteData 0 write₀)).isSome :=
  ⟨rfl, rfl, ⟨_, rfl, by decide⟩, by decide, ⟨rfl, rfl, (fun _ h => by cases h; rfl), rfl⟩, by decide +kernel⟩
theorem witness_BuildKill :
    ({ kill₀ with epc := [1] }).epc.length % 2 = 1
    ∧ (∃ pw, ({ kill₀ with password := some [1, 2, 3, 4, 5] }).password = some pw ∧ pw.length ≠ 4)
    ∧ ({ kill₀ with maskLength := some 1 }).maskAddress.isSome ≠ ({ kill₀ with maskLength := some 1 }).maskLength.isSome
    ∧ (kill₀.epc.length % 2 = 0 ∧ (∀ pw, kill₀.password = some pw → pw.length = 4)
      ∧ kill₀.maskAddress.isSome = kill₀.maskLength.isSome)
    ∧ (encode Params.defaults (.cmdKillTag 0 kill₀)).isSome :=
  ⟨rfl, ⟨_, rfl, by decide⟩, by decide, ⟨rfl, (fun _ h => by cases h; rfl), rfl⟩, by decide +kernel⟩

/-- The two sides of the CRC test of a frame. -/
def crcTest (buf : List Byte) : Bool :=
  crc (buf.take (buf.length - 2)) == le16 (buf.getD (buf.length - 2) 0) (buf.getD (buf.length - 1) 0)

/-- The length byte counts what follows it. -/
def counts (buf : List Byte) : Bool := (buf.getD 0 0).toNat + 1 == buf.length

theorem witness_CheckFrame :
    ([] : List Byte).length < 1 ∧ counts [6, 0, 1, 0xFB, 0xF2, 0x3D] = false
    ∧ (counts [3, 0, 1, 0xAA] = true ∧ [3, 0, 1, (0xAA : Byte)].length < 5)
    ∧ (counts [4, 10, 1, 171, 183] = true ∧ crcTest [4, 10, 1, 171, 183] = false)
    ∧ (counts [4, 10, 1, 171, 182] = true ∧ crcTest [4, 10, 1, 171, 182] = true) := by decide +kernel
theorem witness_DecodeResponse :
    (counts [4, 10, 1, 171, 182] = true ∧ [4, 10, 1, 171, (182 : Byte)].length < 6)
    ∧ (counts [5, 0, 1, 251, 242, 60] = true ∧ crcTest [5, 0, 1, 251, 242, 60] = false)
    ∧ (counts [5, 0, 1, 0x77, 0x96, 0x73] = true ∧ crcTest [5, 0, 1, 0x77, 0x96, 0x73] = true
      ∧ statusDecode Params.defaults 0x77 = none)
    ∧ (crcTest [5, 0, 1, 251, 242, 61] = true ∧ statusDecode Params.defaults 251 = some (.named .noTags))
    ∧ Params.defaults.wf = true ∧ ((242, 60) : Byte × Byte) ≠ (242, 61) := by decide +kernel
theorem witness_FrameRoundTrip :
    (List.replicate 251 (0 : Byte)).length ≤ 251 ∧ (List.replicate 250 (0 : Byte)).length ≤ 250
    ∧ statusDecode Params.defaults 0xFB = some (.named .noTags) := by decide +kernel
theorem witness_ResidueForm : 2 ≤ [0xFF, (0xFF : Byte)].length ∧ crc [0xFF, 0xFF] = 0x0000 := by decide +kernel
theorem witness_StatusDecode :
    Params.defaults.wf = true ∧ statusDecode Params.defaults 0xF9 = some (.other 0xF9) := by decide +kernel
theorem witness_CfgAddr :
    hi8 0x10FF = 0x10 ∧ State.reset.phase = .idle ∧ (inPh .failed).phase ≠ .idle := by decide
theorem witness_TxClear :
    hi8 0x11FF = 0x11 ∧ State.reset.phase = .idle ∧ (inPh .success).phase ≠ .idle := by decide
theorem witness_TxPush :
    hi8 0x12FF = 0x12
    ∧ (({ State.reset with txlen := 250 } : State).phase = .idle ∧ ({ State.reset with txlen := 250 } : State).txlen.toNat < 251)
    ∧ (({ State.reset with txlen := 251 } : State).phase = .idle ∧ 251 ≤ ({ State.reset with txlen := 251 } : State).txlen.toNat)
    ∧ (inPh .sending).phase ≠ .idle
    ∧ (isOperationOfBlock .txClear = true ∧ ({ State.reset with txlen := 252 } : State).txlen = 252
      ∧ (seen (exec .txClear { State.reset with txlen := 252 }) fun _ => ()).isSome) := by decide +kernel
theorem witness_XchgStart :
    hi8 0x13FF = 0x13 ∧ State.reset.phase = .idle ∧ (0x04 : Byte) ∉ ([0x01, 0x02, 0x03, 0x05, 0x21] : List Byte)
    ∧ (0x21 : Byte) ∈ ([0x01, 0x02, 0x03, 0x05, 0x21] : List Byte)
    ∧ 251 < ({ State.reset with txlen := 252 } : State).txlen.toNat
    ∧ ({ State.reset with txlen := 251 } : State).txlen.toNat ≤ 251 ∧ (inPh .validating).phase ≠ .idle := by decide
theorem witness_XchgAck :
    hi8 0x14FF = 0x14 ∧ (success₀.phase = .success ∨ success₀.phase = .failed)
    ∧ (failed₀.phase = .success ∨ failed₀.phase = .failed)
    ∧ (State.reset.phase ≠ .success ∧ State.reset.phase ≠ .failed) := by decide

/-- A command of one payload byte in progress, `i` bytes emitted. -/
def sending₀ (i : Count) : State := { inPh .sending with txop := 2, txlen := 1, txbuf := [(0, 7)], txidx := i }

theorem witness_ChTxbyte :
    (∀ i ∈ [(0 : Count), 1, 2, 3, 4, 5],
      (sending₀ i).phase = .sending ∧ (sending₀ i).txlen.toNat ≤ 251 ∧ (sending₀ i).txidx.toNat ≤ (sending₀ i).txlen.toNat + 4
      ∧ ∀ k, k < 1 → ((sending₀ i).txbuf.read k).isSome)
    ∧ (sending₀ 0).txlen.toNat = 1 ∧ State.reset.phase ≠ .sending := by decide +kernel
theorem witness_ChRxbyteLength :
    (inPh .awaitingLength).phase = .awaitingLength ∧ State.reset.phase ≠ .awaitingLength := by decide
theorem witness_ChRxbyteBody :
    (({ inPh .awaitingBody with rxlen := 255, rxcnt := 255 } : State).phase = .awaitingBody
      ∧ ({ inPh .awaitingBody with rxlen := 255, rxcnt := 255 } : State).rxcnt.toNat
        ≤ ({ inPh .awaitingBody with rxlen := 255, rxcnt := 255 } : State).rxlen.toNat)
    ∧ State.reset.phase ≠ .awaitingBody := by decide
theorem witness_ChIoerr :
    (∀ ph ∈ [Phase.sending, .awaitingLength, .awaitingBody],
      (inPh ph).phase = .sending ∨ (inPh ph).phase = .awaitingLength ∨ (inPh ph).phase = .awaitingBody)
    ∧ (∀ ph ∈ [Phase.idle, .validating, .success, .failed],
      (inPh ph).phase ≠ .sending ∧ (inPh ph).phase ≠ .awaitingLength ∧ (inPh ph).phase ≠ .awaitingBody) := by decide

/-- The hypotheses of the clauses of `Validate` that read bytes. -/
theorem witness_Validate :
    ({ validating₀ with rxlen := 4 } : State).rxlen.toNat < 5
    ∧ (validating₀.phase = .validating ∧ 5 ≤ validating₀.rxlen.toNat
      ∧ validating₀.rxbuf.read 4 = some 0xF2 ∧ validating₀.rxbuf.read 5 = some 0x3D
      ∧ validating₀.rxbuf.read 3 = some 0xFB)
    ∧ ({ validating₀ with crc := 0 } : State).crc ≠ le16 0xF2 0x3D
    ∧ (validating₀.crc = le16 0xF2 0x3D ∧ statusDecode validating₀.params 0xFB = some (.named .noTags)
      ∧ validating₀.txop = 0x01)
    ∧ (classify (.named .noTags) ≠ .success
      ∧ ¬((Status.named .noTags) = .named .noTags ∧ ({ validating₀ with txop := 2 } : State).txop = 0x01))
    ∧ statusDecode { Params.defaults with returnBeforeInventoryFinished := 0xFB } 0xFB
      = some (.named .returnBeforeInventoryFinished)
    ∧ ({ validating₀ with rxbuf := validating₀.rxbuf.write 3 0x77 } : State).rxbuf.read 3 = some 0x77
    ∧ statusDecode validating₀.params 0x77 = none ∧ State.reset.phase ≠ .validating := by decide +kernel
theorem witness_ValidateIsDecodeResponse :
    (Inv validating₀ ∧ validating₀.phase = .validating)
    ∧ (∃ r, decodeResponse validating₀.params (validating₀.rxbuf.span (validating₀.rxlen.toNat + 1)) = .ok r)
    ∧ (Inv tooShort₀ ∧ tooShort₀.phase = .validating
      ∧ decodeResponse tooShort₀.params (tooShort₀.rxbuf.span (tooShort₀.rxlen.toNat + 1))
        = .error ⟨.program, .badLength⟩) :=
  ⟨⟨inv_validating₀, rfl⟩, ⟨⟨0, 1, .named .noTags, []⟩, by decide +kernel⟩, inv_tooShort₀, rfl, by decide +kernel⟩
theorem witness_Reset :
    (∃ t, exec .reset success₀ = .next t)
    ∧ (presentMoment { success₀ with moments := [⟨true, true, true, true, [], none, none⟩] }).rst = true :=
  ⟨⟨_, rfl⟩, rfl⟩
theorem witness_ReadsOfAnyPhase :
    (hi8 0x20FF = 0x20 ∧ hi8 0x21FF = 0x21 ∧ hi8 0x23FF = 0x23 ∧ hi8 0x25FF = 0x25)
    ∧ (Inv success₀ ∧ success₀.phase ≠ .failed) ∧ (Inv failed₀ ∧ failed₀.phase = .failed) :=
  ⟨by decide, ⟨inv_success₀, by decide⟩, inv_failed₀, rfl⟩
theorem witness_ReadsOfAnEndedExchange :
    (hi8 0x22FF = 0x22 ∧ hi8 0x24FF = 0x24) ∧ (Inv success₀ ∧ success₀.phase = .success)
    ∧ (Inv failed₀ ∧ failed₀.phase = .failed ∧ failed₀.resCause ≠ .status ∧ failed₀.resCause ≠ .unknownStatus)
    ∧ (State.reset.phase ≠ .success ∧ State.reset.phase ≠ .failed) :=
  ⟨by decide, ⟨inv_success₀, rfl⟩, ⟨inv_failed₀, rfl, by decide, by decide⟩, by decide⟩
theorem witness_RdRsp :
    hi8 0x26FF = 0x26 ∧ State.reset.phase ≠ .success
    ∧ (success₀.phase = .success ∧ success₀.rxlen.toNat < (4 : Byte).toNat + 2)
    ∧ ((3 : Byte).toNat + 2 ≤ success₀.rxlen.toNat ∧ success₀.rxbuf.read (3 : Byte).toNat = some 0xFB) ∧ Inv success₀ :=
  ⟨by decide, by decide, by decide, by decide, inv_success₀⟩
theorem witness_Refusal :
    (Instr.format .crcInit = .host ∧ legalIn .crcInit (inPh .sending).phase = false)
    ∧ hi8 0x0400 ∉ ([0x01, 0x02, 0x03, 0x10, 0x11, 0x12, 0x13, 0x14, 0x20, 0x21, 0x22, 0x23, 0x24, 0x25, 0x26] : List Byte)
    ∧ (seen (exec .crcInit State.reset) fun _ => ()).isSome := by decide +kernel
theorem witness_Refusal_step :
    ({ State.reset with moments := [wordMoment 0x0400] } : State).moments = [wordMoment 0x0400]
    ∧ HostFirst { State.reset with moments := [wordMoment 0x0400] } (wordMoment 0x0400)
    ∧ (wordMoment 0x0400).host = some (.word 0x0400) ∧ decodeHost 0x0400 = .error (.unassignedOpsel 0x04) :=
  ⟨rfl, hostFirst_of_idle _ _ rfl rfl rfl rfl, rfl, by decide +kernel⟩

/-- An operation of the block that answers a next state, in each of the phases that statements name. -/
theorem witness_blockOperations :
    isOperationOfBlock (.xchgStart 1) = true ∧ (seen (exec (.xchgStart 1) State.reset) fun _ => ()).isSome
    ∧ isOperationOfBlock .rdPhase = true ∧ (seen (exec .rdPhase success₀) fun _ => ()).isSome
    ∧ (seen (exec .rdPhase failed₀) fun _ => ()).isSome := by decide +kernel
theorem witness_PhaseTransitions :
    isOperationOfBlock .chIoerr = true ∧ seen (exec .chIoerr (inPh .sending)) (·.phase) = some .failed := by decide +kernel
theorem witness_FailuresRaisedBy :
    (isOperationOfBlock (.xchgStart 4) = true ∧ State.reset.phase ≠ .failed
      ∧ seen (exec (.xchgStart 4) State.reset) (·.phase) = some .failed)
    ∧ (isOperationOfBlock .validate = true ∧ validating₀.phase ≠ .failed
      ∧ seen (exec .validate { validating₀ with rxlen := 4 }) (·.phase) = some .failed)
    ∧ (Instr.format (.rdRsp 4) = .host ∧ seen (exec (.rdRsp 4) success₀) (·.answer) = some (some ⟨.range, 0⟩)
      ∧ RCode.range ≠ .ok) := by decide +kernel
theorem witness_WritersOfState :
    isOperationOfBlock (.txPush 7) = true ∧ Instr.txPush 7 ≠ .reset
    ∧ seen (exec (.txPush 7) State.reset) (fun t => t.txbuf.read 0) = some (some 7)
    ∧ State.reset.txbuf.read 0 = none := by decide +kernel
theorem witness_FailedHidesResponse :
    isOperationOfBlock .xchgAck = true ∧ failed₀.phase = .failed
    ∧ (seen (exec .xchgAck failed₀) fun _ => ()).isSome := by decide +kernel
theorem witness_EndedExchangeIsStable :
    isOperationOfBlock .chIoerr = true ∧ (success₀.phase = .success ∨ success₀.phase = .failed)
    ∧ Instr.chIoerr ≠ .xchgAck ∧ Instr.chIoerr ≠ .reset ∧ (seen (exec .chIoerr success₀) fun _ => ()).isSome := by
  decide +kernel

/-- The lengths of the three payloads, the first at the longest a frame takes. -/
theorem witness_CommandSentWhole :
    State.reset.phase = .idle ∧ State.reset.chanReady = true
    ∧ (buildRead State.reset.params { read₀ with epc := List.replicate 242 0 }).toOption.map List.length = some 250
    ∧ (buildWrite State.reset.params write₀).toOption.map List.length = some 16
    ∧ (buildKill kill₀).toOption.map List.length = some 9 := by decide +kernel
theorem witness_CommandSentWhole_step :
    HostFirst { State.reset with moments := [commandMoment [5, 0, 1, 0xFB, 0xF2, 0x3D]] }
      (commandMoment [5, 0, 1, 0xFB, 0xF2, 0x3D])
    ∧ checkFrame [5, 0, 1, 0xFB, 0xF2, 0x3D] = .ok ⟨0, 0x01, [0xFB]⟩
    ∧ (commandMoment [5, 0, 1, 0xFB, 0xF2, 0x3D]).chan = true
    ∧ (0x01 : Byte) ∈ ([0x01, 0x02, 0x03, 0x05, 0x21] : List Byte) :=
  ⟨hostFirst_of_idle _ _ rfl rfl rfl rfl, by decide +kernel, rfl, by decide⟩
theorem witness_CommandNotSent_step :
    (HostFirst { inPh .awaitingLength with moments := [commandMoment [4, 10, 1, 171, 182]] }
        (commandMoment [4, 10, 1, 171, 182])
      ∧ checkFrame [4, 10, 1, 171, 182] = .ok ⟨10, 1, []⟩ ∧ (inPh .awaitingLength).phase ≠ .idle)
    ∧ (HostFirst { State.reset with moments := [commandMoment [7, 0, 0x77, 1, 2, 3, 0x32, 0x42]] }
        (commandMoment [7, 0, 0x77, 1, 2, 3, 0x32, 0x42])
      ∧ checkFrame [7, 0, 0x77, 1, 2, 3, 0x32, 0x42] = .ok ⟨0, 0x77, [1, 2, 3]⟩
      ∧ (0x77 : Byte) ∉ ([0x01, 0x02, 0x03, 0x05, 0x21] : List Byte))
    ∧ (checkFrame [5, 0, 1, 0xFB, 0xF2, 0x3C] = .error ⟨.program, .badCrc⟩
      ∧ [5, 0, 1, 0xFB, 0xF2, (0x3C : Byte)].length ≠ 3 ∧ [5, 0, 1, 0xFB, 0xF2, (0x3C : Byte)].length ≠ 4
      ∧ checkFrame [] = .error ⟨.program, .badLength⟩) :=
  ⟨⟨by simp [HostFirst, inPh, commandMoment, State.reset], by decide +kernel, by decide⟩,
    ⟨hostFirst_of_idle _ _ rfl rfl rfl rfl, by decide +kernel, by decide⟩, by decide +kernel⟩
theorem witness_CommandNotSent :
    (∃ e, buildRead Params.defaults { read₀ with epc := [1] } = .error e)
    ∧ (∃ e, buildWrite Params.defaults { write₀ with data := [1] } = .error e)
    ∧ (∃ e, buildKill { kill₀ with password := some [] } = .error e)
    ∧ (inPh .sending).phase ≠ .idle ∧ (∃ payload, buildRead Params.defaults read₀ = .ok payload)
    ∧ (buildWrite Params.defaults { write₀ with data := List.replicate 244 0 }).toOption.map List.length = some 256
    ∧ (buildRead Params.defaults { read₀ with epc := List.replicate 244 0 }).toOption.map List.length = some 252
    ∧ (buildKill { kill₀ with epc := List.replicate 248 0 }).toOption.map List.length = some 253
    ∧ ({ State.reset with chanReady := false } : State).phase = .idle :=
  ⟨⟨_, rfl⟩, ⟨_, rfl⟩, ⟨_, rfl⟩, by decide, ⟨_, rfl⟩, by decide +kernel, by decide +kernel,
    by decide +kernel, rfl⟩

/-- A response frame of the shortest kind that has a trailer. -/
def frame₀ : RspFrame := ⟨5, 0, 1, [0xF2, 0x3D]⟩

/-- AwaitingLength: the frame alone, one byte already there that is a response of its own, and a beginning at the
longest it can have; AwaitingBody: the rest alone, with bytes behind it, and all but the last byte of it. -/
theorem witness_ResponseTakenAndJudged :
    ((inPh .awaitingLength).phase = .awaitingLength ∧ (inPh .awaitingLength).crc = crcSeed)
    ∧ (Framed [5, 0, 1, 0xFB, 0xF2, 0x3D]
      ∧ (inPh .awaitingLength).rxStream ++ [5, 0, 1, 0xFB, 0xF2, 0x3D] = [5, 0, 1, 0xFB, 0xF2, 0x3D] ++ [])
    ∧ (Framed [0] ∧ ({ inPh .awaitingLength with rxStream := [0] } : State).rxStream ++ [5, 0, 1, 0xFB]
      = [0] ++ [5, 0, 1, 0xFB])
    ∧ [4, 0, 1, (0xFB : Byte)].length ≤ ([4, 0, 1, (0xFB : Byte)].getD 0 0).toNat
    ∧ (({ inPh .awaitingBody with rxlen := 5, rxcnt := 1 } : State).rxcnt.toNat + [0, 1, 0xFB, 0xF2, (0x3D : Byte)].length
        = ({ inPh .awaitingBody with rxlen := 5, rxcnt := 1 } : State).rxlen.toNat + 1)
    ∧ (({ inPh .awaitingBody with rxlen := 5, rxcnt := 5 } : State).rxcnt.toNat + [(5 : Byte)].length
        = ({ inPh .awaitingBody with rxlen := 5, rxcnt := 5 } : State).rxlen.toNat + 1
      ∧ ([] : List Byte) ++ [5, 0, 1, (0xFB : Byte)] = [5] ++ [0, 1, 0xFB])
    ∧ ({ inPh .awaitingBody with rxlen := 5, rxcnt := 1 } : State).rxcnt.toNat + [0, 1, 0xFB, (0xF2 : Byte)].length
        ≤ ({ inPh .awaitingBody with rxlen := 5, rxcnt := 1 } : State).rxlen.toNat :=
  ⟨⟨rfl, rfl⟩, ⟨rfl, rfl⟩, ⟨rfl, rfl⟩, by decide, by decide, by decide, by decide⟩
theorem witness_ResponseRowsEndAs_state :
    (inPh .awaitingLength).rxStream = [] ∧ frame₀.length.toNat = frame₀.rest.length + 3 := by decide
theorem witness_ResponseRowsEndAs :
    (inPh .awaitingLength).params.wf = true ∧ 2 ≤ frame₀.rest.length
    ∧ encode Params.defaults (.statusNoTags frame₀) = some [5, 0, 1, 0xFB, 0xF2, 0x3D]
    ∧ trailerOk [5, 0, 1, 0xFB, 0xF2, 0x3D] = true
    ∧ ({ inPh .awaitingLength with txop := 1 } : State).txop = 0x01 ∧ (inPh .awaitingLength).txop ≠ 0x01
    ∧ encode Params.defaults (.statusOtherF9 ⟨5, 0, 3, [0x50, 0x2D]⟩) = some [5, 0, 3, 0xF9, 0x50, 0x2D]
    ∧ trailerOk [5, 0, 3, 0xF9, 0x50, 0x2D] = true ∧ 0xF9 ∈ Params.defaults.statusOther
    ∧ trailerOk [5, 0, 1, 0x77, 0x96, 0x73] = true ∧ statusDecode Params.defaults 0x77 = none := by decide +kernel
theorem witness_ResponseNotAwaitedStays :
    Instr.format (.statusOk frame₀) = .rsp ∧ encode Params.defaults (.statusOk frame₀) = some [5, 0, 1, 0, 0xF2, 0x3D]
    ∧ (State.reset.phase = .idle ∨ State.reset.phase = .sending ∨ State.reset.phase = .success
      ∨ State.reset.phase = .failed)
    ∧ (inPh .validating).phase = .validating := by decide
theorem witness_PseudoXchg :
    ({ State.reset with rxStream := [5, 0, 1, 0xFB, 0xF2, 0x3D] ++ [7] } : State).phase = .idle
    ∧ State.reset.chanReady = true ∧ (0x21 : Byte) ∈ ([0x01, 0x02, 0x03, 0x05, 0x21] : List Byte)
    ∧ (List.replicate 251 (0 : Byte)).length ≤ 251 ∧ Framed [5, 0, 1, 0xFB, 0xF2, 0x3D] ∧ Framed [0] :=
  ⟨rfl, rfl, by decide, by decide +kernel, rfl, rfl⟩
theorem witness_PublicOperations :
    (∃ payload, buildRead Params.defaults read₀ = .ok payload ∧ payload.length ≤ 251)
    ∧ (∃ payload, buildWrite Params.defaults write₀ = .ok payload ∧ payload.length ≤ 251)
    ∧ (∃ payload, buildKill kill₀ = .ok payload ∧ payload.length ≤ 251) :=
  ⟨⟨_, rfl, by decide +kernel⟩, ⟨_, rfl, by decide +kernel⟩, ⟨_, rfl, by decide +kernel⟩⟩
theorem witness_PseudoRejected :
    State.reset.phase = .idle ∧ (0x04 : Byte) ∉ ([0x01, 0x02, 0x03, 0x05, 0x21] : List Byte)
    ∧ 251 < (List.replicate 252 (0 : Byte)).length := by decide +kernel
theorem witness_WaitingHost :
    (({ State.reset with chanReady := false } : State).phase = .idle
      ∧ ({ State.reset with chanReady := false } : State).chanReady = false)
    ∧ (success₀.moments = [] ∧ ({ success₀ with task := some .xchg } : State).task = some .xchg ∧ success₀.phase = .success)
    ∧ (failed₀.moments = [] ∧ ({ failed₀ with task := some .kill } : State).task = some .kill ∧ failed₀.phase = .failed) := by
  decide
theorem witness_WaitingHost_inv : Inv { success₀ with task := some .xchg } :=
  have v := inv_success₀.success rfl
  ⟨inv_success₀.txlenBound, inv_success₀.staged, inv_success₀.sending, inv_success₀.awaitingLength,
    fun h => absurd h (by decide), fun h => absurd h (by decide),
    fun _ => ⟨v.longEnough, v.complete, ⟨v.receiving.written, v.receiving.lengthByte, v.receiving.running⟩,
      v.trailer, v.status, v.accepted⟩, inv_success₀.failed,
    inv_success₀.recorded, inv_success₀.noCause, inv_success₀.noStatus, inv_success₀.txbufForm,
    inv_success₀.rxbufForm⟩
theorem witness_ParseInventory :
    (some (Status.named .ok)) ≠ some (.named .noTags)
    ∧ (∀ tag ∈ [List.replicate 255 (0 : Byte), []], tag.length ≤ 255)
    ∧ [List.replicate 255 (0 : Byte), []].length = (2 : Byte).toNat
    ∧ [List.replicate 255 (0 : Byte), []].length < (3 : Byte).toNat
    ∧ ([1] : List Byte).length < (2 : Byte).toNat := by decide +kernel
theorem witness_ParseRecords : (List.replicate 7 (0 : Byte)).length ≠ 8 ∧ (List.replicate 9 (0 : Byte)).length ≠ 8 := by
  decide
theorem witness_DecodeOfEncode :
    Params.defaults.wf = true
    ∧ ∀ i ∈ [Instr.cmdWriteData 255 write₀, .statusUnknown 0x77 frame₀, .statusOther12 frame₀, .rdRsp 255],
      i.wf Params.defaults = true ∧ (i.format = .cmd ∨ i.format = .rsp ∨ i.format = .host) := by decide +kernel
theorem witness_HostWords : decodeHost 0x26FF = .ok (.rdRsp 0xFF) := by decide +kernel

theorem witness_StepRunsDecoded :
    HostFirst { State.reset with moments := [wordMoment 0x0261] } (wordMoment 0x0261)
    ∧ ((wordMoment 0x0261).host = some (.word 0x0261) ∧ decodeHost 0x0261 = .ok (.crcUpdate 0x61))
    ∧ ((commandMoment [4, 10, 1, 171, 182]).host = some (.command [4, 10, 1, 171, 182])
      ∧ decode State.reset.params .cmd [4, 10, 1, 171, 182] = .ok (.cmdInventory 10))
    ∧ pseudoInstr .inventory = .inventory
    ∧ decode State.reset.params .rsp [5, 0, 1, 251, 242, 61] = .ok (.statusNoTags ⟨5, 0, 1, [242, 61]⟩) :=
  ⟨hostFirst_of_idle _ _ rfl rfl rfl rfl, ⟨rfl, by decide +kernel⟩, ⟨rfl, by decide +kernel⟩, rfl, by decide +kernel⟩
theorem witness_StepRunsTableWord :
    State.reset.params = Params.defaults ∧ State.reset.phase = .idle
    ∧ decodeTableWord 16 0x26FF = some (.rdRsp 255)
    ∧ decodeTableWord 32 0x00210000 = some (.cmdGetReaderInformation 0)
    ∧ decodeTableWord 32 0x77000000 = some (.statusUnknown 0x77 ⟨0, 0, 0, []⟩) := by decide +kernel
theorem witness_Precedence :
    ((presentMoment State.reset).rst = false ∧ (presentMoment State.reset).ioErr = false
      ∧ (presentMoment State.reset).frame = none ∧ (presentMoment State.reset).chan = true)
    ∧ (inPh .sending).phase = .sending
    ∧ ({ inPh .awaitingBody with rxStream := [1, 2] } : State).rxStream ++ (presentMoment State.reset).bytes = 1 :: [2]
    ∧ ((presentMoment State.reset).internal = true ∧ validating₀.phase = .validating)
    ∧ (({ validating₀ with moments := [wordMoment 0x2000] } : State).moments = wordMoment 0x2000 :: []
      ∧ (wordMoment 0x2000).host = some (.word 0x2000)) :=
  ⟨by decide, rfl, by decide, by decide, rfl, rfl⟩
theorem witness_WaitsForEver :
    State.reset.moments = [] ∧ (inPh .awaitingBody).rxStream = []
    ∧ ({ inPh .sending with chanReady := false } : State).chanReady = false := by decide
theorem witness_StepKeepsInv : Inv validating₀ ∧ ∃ t, step validating₀ = .next t := ⟨inv_validating₀, _, rfl⟩
theorem witness_NoStop : Inv success₀ := inv_success₀

end Sys2Proof.Tests
end

section
/-! The CRC engine (40_crc.md): the bit step read bit by bit (R101), and the three host operations on
the CRC register (R108 to R110). -/

namespace Sys2Proof

/-! ## The bit step -/

/-- Each bit of the bit step: the register's next higher bit, with the feedback bit fed in where the
polynomial has a tap (R101). -/
theorem getLsbD_crcBit (c : Word) (d : Bool) (i : Nat) :
    (crcBit c d).getLsbD i = (c.getLsbD (i + 1) ^^ ((c.getLsbD 0 ^^ d) && crcPolyRev.getLsbD i)) := by
  rw [crcBit, Nat.add_comm i 1]
  split
  next hfb => rw [hfb, BitVec.getLsbD_xor, BitVec.getLsbD_ushiftRight, Bool.true_and]
  next hfb =>
    rw [Bool.eq_false_of_not_eq_true hfb, BitVec.getLsbD_ushiftRight, Bool.false_and, Bool.xor_false]

/-- The polynomial has no tap but those at bits 15, 10 and 3 (R100). -/
theorem getLsbD_crcPolyRev_of_no_tap :
    ∀ i, i < 15 → i ≠ 10 → i ≠ 3 → crcPolyRev.getLsbD i = false := by decide

/-- At a tap the feedback bit is fed in (R101). -/
theorem getLsbD_crcBit_tap (c : Word) (d : Bool) {i : Nat} (h : crcPolyRev.getLsbD i = true) :
    (crcBit c d).getLsbD i = (c.getLsbD (i + 1) ^^ (c.getLsbD 0 ^^ d)) := by
  rw [getLsbD_crcBit, h, Bool.and_true]

/-- Elsewhere the bit step only shifts (R101). -/
theorem getLsbD_crcBit_no_tap (c : Word) (d : Bool) {i : Nat} (h : crcPolyRev.getLsbD i = false) :
    (crcBit c d).getLsbD i = c.getLsbD (i + 1) := by
  rw [getLsbD_crcBit, h, Bool.and_false, Bool.xor_false]

/-- Settles O1: bits 15, 10 and 3 are the taps, and at bit 15 the shift brings in a zero. -/
theorem crcBitStep : Obligations.CrcBitStep := by
  intro c d
  have htop : c.getLsbD (15 + 1) = false := BitVec.getLsbD_of_ge c 16 (Nat.le_refl 16)
  refine ⟨rfl, ?bit15, ?bit10, ?bit3, ?others⟩
  case bit15 => rw [getLsbD_crcBit_tap c d rfl, htop, Bool.false_xor]
  case bit10 => exact getLsbD_crcBit_tap c d rfl
  case bit3 => exact getLsbD_crcBit_tap c d rfl
  case others =>
    intro i hi h10 h3
    exact getLsbD_crcBit_no_tap c d (getLsbD_crcPolyRev_of_no_tap i hi h10 h3)

/-! ## The host operations on the CRC register -/

namespace Machine

theorem decodeHost_crcInit {w : Word} (h : hi8 w = 0x01) : decodeHost w = .ok .crcInit := by
  rw [decodeHost, h]; rfl

theorem decodeHost_crcUpdate {w : Word} (h : hi8 w = 0x02) : decodeHost w = .ok (.crcUpdate (lo8 w)) := by
  rw [decodeHost, h]; rfl

theorem decodeHost_crcRead {w : Word} (h : hi8 w = 0x03) : decodeHost w = .ok .crcRead := by
  rw [decodeHost, h]; rfl

/-- R108 in the terms of the host port. -/
theorem exec_crcInit (s : State) :
    exec .crcInit s = inIdle s (.next (respond .ok 0 { s with crc := crcSeed })) := rfl

/-- R109 in the terms of the host port. -/
theorem exec_crcUpdate (b : Byte) (s : State) :
    exec (.crcUpdate b) s = inIdle s (.next (respond .ok 0 { s with crc := crcByte s.crc b })) := rfl

/-- R110 in the terms of the host port. -/
theorem exec_crcRead (s : State) : exec .crcRead s = inIdle s (.next (respond .ok s.crc s)) := rfl

theorem exec_crcInit_idle {s : State} (h : s.phase = .idle) :
    exec .crcInit s = .next { s with crc := 0xFFFF, answer := some ⟨.ok, 0⟩ } := by
  rw [exec_crcInit, inIdle_idle h]; rfl

theorem exec_crcUpdate_idle (b : Byte) {s : State} (h : s.phase = .idle) :
    exec (.crcUpdate b) s = .next { s with crc := crcByte s.crc b, answer := some ⟨.ok, 0⟩ } := by
  rw [exec_crcUpdate, inIdle_idle h]; rfl

theorem exec_crcRead_idle {s : State} (h : s.phase = .idle) :
    exec .crcRead s = .next { s with answer := some ⟨.ok, s.crc⟩ } := by
  rw [exec_crcRead, inIdle_idle h]; rfl

/-- Outside Idle the three operations are refused (R108 to R110, R188). -/
theorem exec_crcOperation_refused (b : Byte) {s : State} (h : s.phase ≠ .idle) {i : Instr}
    (hi : i ∈ [Instr.crcInit, .crcUpdate b, .crcRead]) :
    exec i s = .next { s with answer := some ⟨.refused, 0⟩ } := by
  simp only [List.mem_cons, List.not_mem_nil, or_false] at hi
  rcases hi with rfl | rfl | rfl <;> exact inIdle_refused h _

/-- Settles O7: the words by their selector, the effect in Idle, the refusal elsewhere. -/
theorem crcOperations : Obligations.CrcOperations :=
  ⟨fun _ => ⟨decodeHost_crcInit, decodeHost_crcUpdate, decodeHost_crcRead⟩,
    fun _ b h => ⟨exec_crcInit_idle h, exec_crcUpdate_idle b h, exec_crcRead_idle h⟩,
    fun _ b h _ hi => exec_crcOperation_refused b h hi⟩

end Machine
end Sys2Proof
end

section
/-! The command framer (41_command_codec.md): the two outcomes of `encodeFrame` (R120) and the operation
codes that `encodeCommand` sends (R121). -/

namespace Sys2Proof

/-- R120, the rejected body. -/
theorem encodeFrame_of_too_long (address code : Byte) {body : List Byte} (h : 251 < body.length) :
    encodeFrame address code body = .error ⟨.program, .payloadTooLong⟩ :=
  if_pos h

/-- R120, the frame. A byte that counts the body and the four bytes around it exists only when the body
has at most 251 bytes, so `hn` alone shuts out the rejection. -/
theorem encodeFrame_of_length_byte (address code : Byte) {n : Byte} {body : List Byte}
    (hn : n.toNat = body.length + 4) :
    encodeFrame address code body
      = .ok ([n, address, code] ++ body ++ trailer (crc ([n, address, code] ++ body))) := by
  have hfits : ¬ body.length > maxPayload := Nat.not_lt.mpr (show body.length ≤ 251 by omega)
  have hbyte : BitVec.ofNat 8 (body.length + 4) = n := by rw [← hn, BitVec.ofNat_toNat, BitVec.setWidth_eq]
  rw [encodeFrame, if_neg hfits, hbyte]
  rfl

/-- The length byte of a body that fits does not wrap: 251 is the longest body it can count (R120). -/
theorem toNat_lengthByte {body : List Byte} (h : body.length ≤ 251) :
    (BitVec.ofNat 8 (body.length + 4)).toNat = body.length + 4 :=
  (BitVec.toNat_ofNat _ _).trans (Nat.mod_eq_of_lt (show body.length + 4 < 256 by omega))

/-- R121: each of the five operations is framed under its code, errors included. -/
theorem encodeCommand_eq_encodeFrame (address : Byte) (payload : List Byte) :
    ∀ oc ∈ [(Operation.inventory, (0x01 : Byte)), (.readData, 0x02), (.writeData, 0x03), (.killTag, 0x05),
      (.getReaderInformation, 0x21)],
      encodeCommand address oc.1 payload = encodeFrame address oc.2 payload := by
  have hcodes : ∀ oc ∈ [(Operation.inventory, (0x01 : Byte)), (.readData, 0x02), (.writeData, 0x03),
      (.killTag, 0x05), (.getReaderInformation, 0x21)], opcode oc.1 = oc.2 := by decide
  intro oc hoc
  rw [encodeCommand, hcodes oc hoc]

/-- The Inventory command to address 10, whose CRC is 0xB6AB (R120). -/
theorem encodeFrame_inventory_ten : encodeFrame 10 0x01 [] = .ok [4, 10, 1, 171, 182] := by
  have hcrc : trailer (crc [4, 10, 1]) = [171, 182] := by decide +kernel
  rw [encodeFrame_of_length_byte (n := 4) 10 0x01 rfl, List.append_nil, hcrc]
  rfl

/-! ## The obligation

In a namespace of its own, where the theorem's name does not hide the model's `encodeFrame`. -/

namespace CommandCodec

/-- Settles O9: the bound of 251 is the one at which the length byte still counts without wrapping. -/
theorem encodeFrame : Obligations.EncodeFrame := by
  refine ⟨fun address code body => ⟨encodeFrame_of_too_long address code, fun hfits => ?frame⟩,
    encodeFrame_inventory_ten, encodeCommand_eq_encodeFrame, ?inventory⟩
  case frame =>
    have hn := toNat_lengthByte hfits
    exact ⟨_, _, hn, rfl, encodeFrame_of_length_byte address code hn⟩
  case inventory =>
    rw [encodeCommand_eq_encodeFrame 10 [] (.inventory, 0x01) (List.mem_cons_self ..)]
    exact encodeFrame_inventory_ten

end CommandCodec
end Sys2Proof
end

section
/-! The payload builders of ReadData and WriteData (42_payload_builders.md): the checks and fields the records
share (R130), the two outcomes of each builder (R133, R134), and the operation code a command is sent with. -/

namespace Sys2Proof

/-! ## The shared checks and fields (R130) -/

theorem evenLength_eq_true_iff {bytes : List Byte} : evenLength bytes = true ↔ bytes.length % 2 = 0 :=
  beq_iff_eq

theorem evenLength_eq_false_iff {bytes : List Byte} : evenLength bytes = false ↔ bytes.length % 2 = 1 := by
  rw [← Bool.not_eq_true, evenLength_eq_true_iff, Nat.mod_two_not_eq_zero]

/-- Below 512 bytes the count byte counts the words without wrapping (R82). -/
theorem toNat_wordCount {bytes : List Byte} (h : bytes.length < 512) :
    (wordCount bytes).toNat = bytes.length / 2 := by
  have hbyte : bytes.length / 2 < 256 := by omega
  rw [wordCount, if_pos hbyte, BitVec.toNat_ofNat, Nat.mod_eq_of_lt hbyte]

/-- R130 (b), the rejected passwords. -/
theorem passwordField_eq_none_iff {password : Option (List Byte)} :
    passwordField password = none ↔ ∃ pw, password = some pw ∧ pw.length ≠ 4 := by
  cases password with
  | none => simp [passwordField]
  | some pw => simp [passwordField]

/-- R130 (b): a password of four bytes is sent as it is, an absent one as four zero bytes. -/
theorem passwordField_of_length {password : Option (List Byte)} (h : ∀ pw, password = some pw → pw.length = 4) :
    passwordField password = some (password.getD [0, 0, 0, 0]) := by
  cases password with
  | none => rfl
  | some pw => exact if_pos (h pw rfl)

/-- The password field is always four bytes long (R130 (b)). -/
theorem length_of_passwordField {password : Option (List Byte)} {pw4 : List Byte}
    (h : passwordField password = some pw4) : pw4.length = 4 := by
  cases password with
  | none => cases h; rfl
  | some pw =>
    obtain ⟨hlen, hsame⟩ := Option.ite_none_right_eq_some.mp h
    cases hsame
    exact hlen

/-- R130 (c): exactly one mask field is rejected. -/
theorem maskField_eq_none_iff {address length : Option Byte} :
    maskField address length = none ↔ address.isSome ≠ length.isSome := by
  cases address <;> cases length <;> simp [maskField]

/-- R130 (c): both mask bytes are sent, the address first, or none. -/
theorem maskField_of_isSome_eq {address length : Option Byte} (h : address.isSome = length.isSome) :
    maskField address length = some (address.toList ++ length.toList) := by
  match address, length, h with
  | none, none, _ => rfl
  | some _, some _, _ => rfl

theorem length_of_maskField {address length : Option Byte} {mask : List Byte}
    (h : maskField address length = some mask) : mask.length = if address.isSome then 2 else 0 := by
  cases address <;> cases length <;> cases h <;> rfl

/-- What every builder's payload ends in: the password's four bytes and the mask's two, if any (R130). -/
theorem length_append_passwordField_maskField {front pw4 mask : List Byte} {password : Option (List Byte)}
    {address length : Option Byte} (hpw : passwordField password = some pw4)
    (hmask : maskField address length = some mask) :
    (front ++ pw4 ++ mask).length = front.length + if address.isSome then 6 else 4 := by
  rw [List.length_append, List.length_append, length_of_passwordField hpw, length_of_maskField hmask]
  split <;> rfl

/-! ## The operation code (R76, R120) -/

/-- Byte 2 of a command frame is the code it was framed under (R120). -/
theorem getElem?_two_of_encodeFrame {address code : Byte} {body wire : List Byte}
    (h : encodeFrame address code body = .ok wire) : wire[2]? = some code := by
  by_cases hlong : 251 < body.length
  · rw [encodeFrame_of_too_long address code hlong] at h
    cases h
  · rw [encodeFrame_of_length_byte address code (toNat_lengthByte (Nat.not_lt.mp hlong))] at h
    cases h
    rfl

/-- A command whose payload a builder makes is sent with its operation's code, whatever the payload. -/
theorem getElem?_two_of_encodeBuilt {address : Byte} {operation : Operation} {built : Except Failure (List Byte)}
    {wire : List Byte} (h : (encodeBuilt address operation built).toOption = some wire) :
    wire[2]? = some (opcode operation) := by
  cases built with
  | error e => cases h
  | ok payload =>
    have hframed : (encodeFrame address (opcode operation) payload).toOption = some wire := h
    cases hframe : encodeFrame address (opcode operation) payload with
    | error e => simp [hframe, Except.toOption] at hframed
    | ok frame =>
      rw [hframe] at hframed
      cases hframed
      exact getElem?_two_of_encodeFrame hframe

/-! ## The two outcomes of each builder (R133, R134) -/

theorem buildRead_of_rejected (p : Params) {c : ReadCommand}
    (h : evenLength c.epc = false ∨ passwordField c.password = none
      ∨ maskField c.maskAddress c.maskLength = none) :
    buildRead p c = .error badParameter := by
  unfold buildRead
  split
  next he hpw hmask => simp [he, hpw, hmask] at h
  next => rfl

theorem buildRead_of_accepted (p : Params) {c : ReadCommand} {pw4 mask : List Byte}
    (he : evenLength c.epc = true) (hpw : passwordField c.password = some pw4)
    (hmask : maskField c.maskAddress c.maskLength = some mask) :
    buildRead p c = .ok ([wordCount c.epc] ++ c.epc
      ++ [p.memlocCode c.location, c.startAddress, c.count] ++ pw4 ++ mask) := by
  rw [buildRead, he, hpw, hmask]
  rfl

theorem buildWrite_of_rejected (p : Params) {c : WriteCommand}
    (h : evenLength c.epc = false ∨ evenLength c.data = false ∨ passwordField c.password = none
      ∨ maskField c.maskAddress c.maskLength = none) :
    buildWrite p c = .error badParameter := by
  unfold buildWrite
  split
  next heven hpw hmask =>
    obtain ⟨he, hd⟩ := Bool.and_eq_true_iff.mp heven
    simp [he, hd, hpw, hmask] at h
  next => rfl

theorem buildWrite_of_accepted (p : Params) {c : WriteCommand} {pw4 mask : List Byte}
    (he : evenLength c.epc = true) (hd : evenLength c.data = true)
    (hpw : passwordField c.password = some pw4) (hmask : maskField c.maskAddress c.maskLength = some mask) :
    buildWrite p c = .ok ([wordCount c.data, wordCount c.epc] ++ c.epc
      ++ [p.memlocCode c.location, c.startAddress] ++ c.data ++ pw4 ++ mask) := by
  rw [buildWrite, he, hd, hpw, hmask]
  rfl

/-! ## The obligations

In a namespace of its own, where the theorems' names do not hide the model's builders. -/

namespace PayloadBuilders

/-- Settles O10: R130's three checks decide between the error and the payload, and the frame carries the
code of ReadData. -/
theorem buildRead : Obligations.BuildRead := by
  refine ⟨fun p c => ⟨fun hbad => ?rejected, fun hepc hpw hmask => ?accepted,
    fun _ _ => getElem?_two_of_encodeBuilt⟩, rfl⟩
  case rejected =>
    refine buildRead_of_rejected p ?_
    rwa [evenLength_eq_false_iff, passwordField_eq_none_iff, maskField_eq_none_iff]
  case accepted =>
    have hpw4 := passwordField_of_length hpw
    have hmaskBytes := maskField_of_isSome_eq hmask
    refine ⟨_, _, buildRead_of_accepted p (evenLength_eq_true_iff.mpr hepc) hpw4 hmaskBytes,
      toNat_wordCount, (List.append_assoc ..).symm, ?length⟩
    rw [length_append_passwordField_maskField hpw4 hmaskBytes]
    simp only [List.length_append, List.length_cons, List.length_nil]
    split <;> omega

/-- Settles O11: as O10, with the write data's length checked too and its count before the EPC's. -/
theorem buildWrite : Obligations.BuildWrite := by
  refine ⟨fun p c => ⟨fun hbad => ?rejected, fun hepc hdata hpw hmask => ?accepted,
    fun _ _ => getElem?_two_of_encodeBuilt⟩, rfl⟩
  case rejected =>
    refine buildWrite_of_rejected p ?_
    rwa [evenLength_eq_false_iff, evenLength_eq_false_iff, passwordField_eq_none_iff, maskField_eq_none_iff]
  case accepted =>
    have hpw4 := passwordField_of_length hpw
    have hmaskBytes := maskField_of_isSome_eq hmask
    refine ⟨_, _, _, buildWrite_of_accepted p (evenLength_eq_true_iff.mpr hepc)
      (evenLength_eq_true_iff.mpr hdata) hpw4 hmaskBytes,
      toNat_wordCount, toNat_wordCount, (List.append_assoc ..).symm, ?length⟩
    rw [length_append_passwordField_maskField hpw4 hmaskBytes]
    simp only [List.length_append, List.length_cons, List.length_nil]
    split <;> omega

end PayloadBuilders
end Sys2Proof
end

section
/-! The response parser (43_response_codec.md): the tests that `checkFrame` and `decodeResponse` share, in their
order (R150, R151), and how the one decides when the other succeeds. -/

namespace Sys2Proof

/-! ## The shared tests -/

/-- The length byte counts the bytes after it. An empty buffer fails, as its missing length byte reads as 0. -/
theorem lengthOk_iff {buf : List Byte} : lengthOk buf = true ↔ (buf.getD 0 0).toNat + 1 = buf.length := by
  rw [lengthOk, Bool.and_eq_true, decide_eq_true_iff, decide_eq_true_iff]
  omega

theorem trailerOk_iff {buf : List Byte} :
    trailerOk buf = true ↔ crc (buf.take (buf.length - 2))
      = le16 (buf.getD (buf.length - 2) 0) (buf.getD (buf.length - 1) 0) :=
  beq_iff_eq

/-- The tests of R150 and R151 in their order, with `least` the least length byte, and the answer of a buffer
that passes them. -/
def afterFrameTests {α : Type} (least : Nat) (buf : List Byte) (answer : Except Failure α) : Except Failure α :=
  if !lengthOk buf then .error ⟨.program, .badLength⟩
  else if buf.length - 1 < least then .error ⟨.program, .badLength⟩
  else if !trailerOk buf then .error ⟨.program, .badCrc⟩
  else answer

/-- `checkFrame` asks for 4 bytes after the length byte and yields the fields (R150). -/
theorem checkFrame_eq_afterFrameTests (buf : List Byte) :
    checkFrame buf
      = afterFrameTests 4 buf (.ok ⟨buf.getD 1 0, buf.getD 2 0, (buf.drop 3).take (buf.length - 2 - 3)⟩) := rfl

/-- `decodeResponse` asks for 5 bytes after the length byte and then for a known status (R151). -/
theorem decodeResponse_eq_afterFrameTests (p : Params) (buf : List Byte) :
    decodeResponse p buf
      = afterFrameTests 5 buf ((statusDecode p (buf.getD 3 0)).elim (.error ⟨.program, .unknownStatus⟩) fun st =>
          .ok ⟨buf.getD 1 0, buf.getD 2 0, st, (buf.drop 4).take (buf.length - 2 - 4)⟩) := by
  unfold decodeResponse
  cases statusDecode p (buf.getD 3 0) <;> rfl

section
variable {α : Type} {least : Nat} {buf : List Byte} {answer : Except Failure α}

theorem afterFrameTests_of_badLength (h : (buf.getD 0 0).toNat + 1 ≠ buf.length ∨ buf.length - 1 < least) :
    afterFrameTests least buf answer = .error ⟨.program, .badLength⟩ := by
  unfold afterFrameTests
  split
  next => rfl
  next hcount =>
    have hcounts : (buf.getD 0 0).toNat + 1 = buf.length := lengthOk_iff.mp (by simpa using hcount)
    exact if_pos (h.resolve_left (not_not_intro hcounts))

/-- Once the length tests have passed, the trailer decides. -/
theorem afterFrameTests_of_counts (hcount : (buf.getD 0 0).toNat + 1 = buf.length)
    (hlong : ¬ buf.length - 1 < least) :
    afterFrameTests least buf answer = if trailerOk buf then answer else .error ⟨.program, .badCrc⟩ := by
  rw [afterFrameTests, lengthOk_iff.mpr hcount, Bool.not_true, if_neg Bool.false_ne_true, if_neg hlong]
  cases trailerOk buf <;> rfl

theorem afterFrameTests_of_badCrc (hcount : (buf.getD 0 0).toNat + 1 = buf.length)
    (hlong : ¬ buf.length - 1 < least)
    (hcrc : crc (buf.take (buf.length - 2)) ≠ le16 (buf.getD (buf.length - 2) 0) (buf.getD (buf.length - 1) 0)) :
    afterFrameTests least buf answer = .error ⟨.program, .badCrc⟩ := by
  rw [afterFrameTests_of_counts hcount hlong, if_neg (mt trailerOk_iff.mp hcrc)]

theorem afterFrameTests_of_passed (hcount : (buf.getD 0 0).toNat + 1 = buf.length)
    (hlong : ¬ buf.length - 1 < least)
    (hcrc : crc (buf.take (buf.length - 2)) = le16 (buf.getD (buf.length - 2) 0) (buf.getD (buf.length - 1) 0)) :
    afterFrameTests least buf answer = answer := by
  rw [afterFrameTests_of_counts hcount hlong, if_pos (trailerOk_iff.mpr hcrc)]

/-- Success needs every test, and is then the success of the answer. -/
theorem afterFrameTests_eq_ok_iff {a : α} :
    afterFrameTests least buf answer = .ok a ↔
      ((buf.getD 0 0).toNat + 1 = buf.length ∧ ¬ buf.length - 1 < least ∧ trailerOk buf = true)
        ∧ answer = .ok a := by
  by_cases hbad : (buf.getD 0 0).toNat + 1 ≠ buf.length ∨ buf.length - 1 < least
  · rw [afterFrameTests_of_badLength hbad]
    exact ⟨nofun, fun ⟨⟨hcount, hlong, _⟩, _⟩ => absurd hbad (not_or.mpr ⟨not_not_intro hcount, hlong⟩)⟩
  · obtain ⟨hcount, hlong⟩ := not_or.mp hbad
    rw [not_not] at hcount
    rw [afterFrameTests_of_counts hcount hlong]
    cases trailerOk buf with
    | true => exact ⟨fun h => ⟨⟨hcount, hlong, rfl⟩, h⟩, And.right⟩
    | false => exact ⟨nofun, fun ⟨⟨_, _, htrailer⟩, _⟩ => nomatch htrailer⟩

end

/-! ## The two parsers against each other -/

/-- The body that `checkFrame` yields begins with a status byte exactly when the buffer is long enough for
`decodeResponse`, and goes on with the payload (R151). -/
theorem frameBody_eq_cons_iff {buf payload : List Byte} {b : Byte} :
    (buf.drop 3).take (buf.length - 2 - 3) = b :: payload ↔
      6 ≤ buf.length ∧ b = buf.getD 3 0 ∧ payload = (buf.drop 4).take (buf.length - 2 - 4) := by
  by_cases hlen : 6 ≤ buf.length
  · have hthree : 3 < buf.length := by omega
    have hbody : buf.length - 2 - 3 = (buf.length - 2 - 4) + 1 := by omega
    rw [List.drop_eq_getElem_cons hthree, hbody, List.take_succ_cons, List.cons_eq_cons,
      List.getD_eq_getElem buf 0 hthree]
    simp only [hlen, true_and, eq_comm (a := b), eq_comm (a := payload)]
  · have hempty : buf.length - 2 - 3 = 0 := by omega
    simp [hempty, hlen]

theorem statusAnswer_eq_ok_iff {known : Option Status} {answer : Status → Response} {r : Response} :
    known.elim (.error ⟨.program, .unknownStatus⟩ : Except Failure Response) (fun st => .ok (answer st)) = .ok r ↔
      ∃ st, known = some st ∧ r = answer st := by
  cases known <;> simp [eq_comm]

/-- `decodeResponse` succeeds exactly when `checkFrame` does with a body that begins with a known status, and
its response is made of the frame's fields (R151). -/
theorem decodeResponse_eq_ok_iff {p : Params} {buf : List Byte} {r : Response} :
    decodeResponse p buf = .ok r ↔
      ∃ f b payload st, checkFrame buf = .ok f ∧ f.body = b :: payload ∧ statusDecode p b = some st
        ∧ r = ⟨f.address, f.code, st, payload⟩ := by
  simp only [decodeResponse_eq_afterFrameTests, checkFrame_eq_afterFrameTests, afterFrameTests_eq_ok_iff,
    statusAnswer_eq_ok_iff]
  constructor
  · rintro ⟨⟨hcount, hlong, htrailer⟩, st, hst, rfl⟩
    exact ⟨_, _, _, st, ⟨⟨hcount, by omega, htrailer⟩, rfl⟩,
      frameBody_eq_cons_iff.mpr ⟨by omega, rfl, rfl⟩, hst, rfl⟩
  · rintro ⟨f, b, payload, st, ⟨⟨hcount, -, htrailer⟩, hfields⟩, hbody, hst, rfl⟩
    cases hfields
    obtain ⟨hlen, rfl, rfl⟩ := frameBody_eq_cons_iff.mp hbody
    exact ⟨⟨hcount, by omega, htrailer⟩, st, hst, rfl⟩

/-! ## The worked frame -/

/-- In an admissible table a named status is decoded from its own code: the codes are distinct (R77, R161). -/
theorem statusDecode_statusCode {p : Params} (hp : p.wf = true) (n : StatusName) :
    statusDecode p (p.statusCode n) = some (.named n) := by
  obtain ⟨⟨hnodup, -⟩, -⟩ : ((statusNames.map p.statusCode).Nodup ∧ _) ∧ _ := by
    simpa only [Params.wf, Bool.and_eq_true, decide_eq_true_iff] using hp
  have hall : ∀ m, m ∈ statusNames := by intro m; cases m <;> decide
  unfold statusDecode
  split
  next m hfind =>
    have hcode : p.statusCode m = p.statusCode n := by simpa using List.find?_some hfind
    rw [List.inj_on_of_nodup_map hnodup (hall m) (hall n) hcode]
  next hfind => exact absurd (List.find?_eq_none.mp hfind n (hall n)) (by simp)

/-- The two bytes of a trailer are read off its value (R9). -/
theorem le16_inj {a b c d : Byte} : le16 a b = le16 c d ↔ (a, b) = (c, d) := by
  refine ⟨fun h => Prod.ext ?low ?high, fun h => by cases h; rfl⟩
  case low => simpa using congrArg lo8 h
  case high => simpa using congrArg hi8 h

/-- The CRC of the NoTags response to Inventory from address 0, as its trailer reads (R151). -/
theorem crc_noTagsResponse : crc [5, 0, 1, 251] = le16 242 61 := by decide +kernel

/-! ## The obligations

In a namespace of its own, where the theorems' names do not hide the model's parsers. -/

namespace ResponseCodec

/-- Settles O13: the shared tests with the least length byte 4. -/
theorem checkFrame : Obligations.CheckFrame := by
  refine ⟨fun buf => ⟨fun hcount => ?miscounted, fun hcount hlen => ?short, fun hcount hlen => ?badCrc,
    fun hcount hlen => ?passed⟩, by decide +kernel⟩
  all_goals rw [checkFrame_eq_afterFrameTests]
  case miscounted => exact afterFrameTests_of_badLength (.inl (by omega))
  case short => exact afterFrameTests_of_badLength (.inr (by omega))
  case badCrc => exact afterFrameTests_of_badCrc hcount (by omega)
  case passed => exact afterFrameTests_of_passed hcount (by omega)

/-- Settles O14: the shared tests with the least length byte 5, and then the status; the buffers that
`checkFrame` accepts and `decodeResponse` is too short for are those with an empty body. -/
theorem decodeResponse : Obligations.DecodeResponse := by
  refine ⟨fun p buf => ⟨fun hbad => ?badLength, fun hcount hlen => ⟨fun hcrc => ?badCrc, fun hcrc =>
      ⟨fun hst => ?unknown, fun st hst => ?known⟩⟩, fun r => decodeResponse_eq_ok_iff⟩,
    fun p hp => ?noTags, fun p x y hxy => ?otherTrailer⟩
  all_goals rw [decodeResponse_eq_afterFrameTests]
  case badLength => exact afterFrameTests_of_badLength (by omega)
  case badCrc => exact afterFrameTests_of_badCrc hcount (by omega) hcrc
  case unknown => rw [afterFrameTests_of_passed hcount (by omega) hcrc, hst]; rfl
  case known => rw [afterFrameTests_of_passed hcount (by omega) hcrc, hst]; rfl
  case noTags =>
    have hst : statusDecode p 251 = some (.named .noTags) := statusDecode_statusCode hp .noTags
    rw [afterFrameTests_of_passed (buf := [5, 0, 1, 251, 242, 61]) rfl (by decide) crc_noTagsResponse]
    exact congrArg (Option.elim · _ _) hst
  case otherTrailer =>
    refine afterFrameTests_of_badCrc (buf := [5, 0, 1, 251, x, y]) rfl (Nat.lt_irrefl 5) fun hcrc => hxy ?_
    exact le16_inj.mp (hcrc.symm.trans crc_noTagsResponse)

end ResponseCodec
end Sys2Proof
end

section
/-! The status classifier (44_status_classifier.md): what a byte decodes to in an admissible table (R161), and the
outcome class of each member of the enumeration (R162, R163). -/

namespace Sys2Proof

/-! ## From a byte to a status (R161) -/

/-- R77's table names every status. -/
theorem mem_statusNames (n : StatusName) : n ∈ statusNames := by
  cases n <;> decide

/-- A byte that is no named status's code is known only as a member of `STATUS_OTHER`. Together with
`statusDecode_statusCode` this says what every byte decodes to. -/
theorem statusDecode_of_no_statusCode {p : Params} {b : Byte} (h : ∀ n, p.statusCode n ≠ b) :
    statusDecode p b = if b ∈ p.statusOther then some (.other b) else none := by
  have hfind : statusNames.find? (fun n => p.statusCode n == b) = none :=
    List.find?_eq_none.mpr fun n _ => by simpa using h n
  simp only [statusDecode, hfind, List.contains_iff_mem]

section
variable {p : Params} {b : Byte}

/-- In an admissible table `STATUS_OTHER` holds no named status's code (R77). -/
theorem statusCode_notMem_statusOther (hp : p.wf = true) (n : StatusName) : p.statusCode n ∉ p.statusOther := by
  obtain ⟨⟨-, hdisjoint⟩, -⟩ : (_ ∧ p.statusOther.all _ = true) ∧ _ := by
    simpa only [Params.wf, Bool.and_eq_true] using hp
  intro hmem
  have hnone : ∀ m ∈ statusNames, p.statusCode m ≠ p.statusCode n := by
    simpa using List.all_eq_true.mp hdisjoint _ hmem
  exact hnone n (mem_statusNames n) rfl

theorem statusDecode_eq_named_iff (hp : p.wf = true) {n : StatusName} :
    statusDecode p b = some (.named n) ↔ p.statusCode n = b := by
  refine ⟨fun hdecode => ?_, fun hcode => hcode ▸ statusDecode_statusCode hp n⟩
  by_cases hnamed : ∃ m, p.statusCode m = b
  · obtain ⟨m, rfl⟩ := hnamed
    rw [statusDecode_statusCode hp m] at hdecode
    cases hdecode
    rfl
  · rw [statusDecode_of_no_statusCode (not_exists.mp hnamed)] at hdecode
    split at hdecode <;> cases hdecode

theorem statusDecode_eq_other_iff (hp : p.wf = true) {b' : Byte} :
    statusDecode p b = some (.other b') ↔ b' = b ∧ b ∈ p.statusOther := by
  by_cases hnamed : ∃ m, p.statusCode m = b
  · obtain ⟨m, rfl⟩ := hnamed
    simp [statusDecode_statusCode hp m, statusCode_notMem_statusOther hp m]
  · rw [statusDecode_of_no_statusCode (not_exists.mp hnamed)]
    simp [and_comm, eq_comm]

theorem statusDecode_eq_none_iff (hp : p.wf = true) :
    statusDecode p b = none ↔ (∀ n, p.statusCode n ≠ b) ∧ b ∉ p.statusOther := by
  by_cases hnamed : ∃ m, p.statusCode m = b
  · obtain ⟨m, rfl⟩ := hnamed
    rw [statusDecode_statusCode hp m]
    exact ⟨nofun, fun ⟨hno, _⟩ => absurd rfl (hno m)⟩
  · have hno := not_exists.mp hnamed
    rw [statusDecode_of_no_statusCode hno]
    simp [hno]

/-- The status determines the byte: a named one by its code, any other because it carries it (R161). -/
theorem statusDecode_injective (hp : p.wf = true) {b' : Byte} {st : Status}
    (h : statusDecode p b = some st) (h' : statusDecode p b' = some st) : b = b' := by
  cases st with
  | named n => exact ((statusDecode_eq_named_iff hp).mp h).symm.trans ((statusDecode_eq_named_iff hp).mp h')
  | other c =>
    obtain ⟨hb, -⟩ := (statusDecode_eq_other_iff hp).mp h
    obtain ⟨hb', -⟩ := (statusDecode_eq_other_iff hp).mp h'
    exact hb.symm.trans hb'

end

/-! ## From a status to its class (R162, R163) -/

theorem successful_iff {st : Status} : successful st = true ↔ classify st = .success :=
  beq_iff_eq

/-! ## The obligations

In a namespace of its own, where the theorems' names do not hide the model's classifier. -/

namespace StatusClassifier

/-- Settles O17: each answer is characterised by whether the byte is a named status's code, a member of
`STATUS_OTHER`, or neither; the codes of OK and NoTags are the same in every table. -/
theorem statusDecode : Obligations.StatusDecode := by
  refine ⟨fun p hp => ⟨fun _ _ => statusDecode_eq_named_iff hp, fun _ _ => statusDecode_eq_other_iff hp,
    fun _ => statusDecode_eq_none_iff hp, fun _ _ _ => statusDecode_injective hp, ?ok, ?noTags⟩,
    ?admissible, ?unknown⟩
  case ok => exact statusDecode_statusCode hp .ok
  case noTags => exact statusDecode_statusCode hp .noTags
  case admissible => decide
  case unknown => decide

/-- Settles O18: the rows of R162's table, each checked at its members, and R163. -/
theorem classify : Obligations.Classify := by
  refine ⟨?success, ?communication, ?protocol, ?program, fun _ => rfl, fun _ => successful_iff⟩
  case success => decide
  case communication => decide
  case protocol => decide
  case program => decide

end StatusClassifier
end Sys2Proof
end

section
/-! Configuration and staging (45_exchange_fsm.md): `CFG.ADDR`, `TX.CLEAR` and `TX.PUSH` (R171 to R173), and which
operations and events of the block leave `txlen` as it is. -/

namespace Sys2Proof.Machine

/-! ## What a meaning keeps of one field -/

/-- If `r` answers a next state, `field` has the value there that it has in `s`. -/
def Keeps {α : Type} (field : State → α) (s : State) (r : Result) : Prop :=
  ∀ t, r = .next t → field t = field s

section
variable {α : Type} {field : State → α} {s : State}

theorem keeps_next {t : State} (h : field t = field s := by rfl) : Keeps field s (.next t) := by
  rintro _ ⟨⟩
  exact h

theorem keeps_ite {c : Prop} [Decidable c] {r r' : Result} (h : Keeps field s r) (h' : Keeps field s r') :
    Keeps field s (if c then r else r') := by
  split
  · exact h
  · exact h'

theorem keeps_withValue {β : Type} {e : Except Fault β} {k : β → Result}
    (h : ∀ b, e = .ok b → Keeps field s (k b)) : Keeps field s (withValue e k) := by
  intro t ht
  obtain ⟨b, hb, hk⟩ := withValue_eq_next ht
  exact h b hb t hk

/-- A host operation keeps every field but the answer where it is refused. -/
theorem keeps_inPhase {legal : Phase → Bool} {k : Result} (h : Keeps field s k)
    (hrefused : field (respond .refused 0 s) = field s := by rfl) : Keeps field s (inPhase legal s k) := by
  rcases inPhase_cases legal s k with ⟨-, heq⟩ | ⟨-, heq⟩ <;> rw [heq]
  · exact h
  · exact keeps_next hrefused

theorem keeps_inIdle {k : Result} (h : Keeps field s k)
    (hrefused : field (respond .refused 0 s) = field s := by rfl) : Keeps field s (inIdle s k) :=
  keeps_inPhase h hrefused

theorem keeps_inDone {k : Result} (h : Keeps field s k)
    (hrefused : field (respond .refused 0 s) = field s := by rfl) : Keeps field s (inDone s k) :=
  keeps_inPhase h hrefused

theorem keeps_inSuccess {k : Result} (h : Keeps field s k)
    (hrefused : field (respond .refused 0 s) = field s := by rfl) : Keeps field s (inSuccess s k) :=
  keeps_inPhase h hrefused

end

/-! ## What keeps `txlen` -/

theorem txlen_of_memWrite {sp : Space} {i : Nat} {v : Byte} {s t : State} (h : memWrite sp i v s = .ok t) :
    t.txlen = s.txlen := by
  obtain ⟨-, ht⟩ := memWrite_ok sp i v s t h
  rw [ht]
  cases sp <;> rfl

theorem txlen_judgeStatus (st : Status) (s : State) : (judgeStatus st s).txlen = s.txlen := by
  unfold judgeStatus
  split
  · rfl
  · split <;> rfl

theorem keeps_txlen_execChTxbyte (s : State) : Keeps State.txlen s (execChTxbyte s) := by
  refine keeps_ite (keeps_withValue fun b _ => keeps_next ?_) keeps_next
  simp only [apply_ite State.txlen, emit_txlen, ite_self]

theorem keeps_txlen_execValidate (s : State) : Keeps State.txlen s (execValidate s) := by
  refine keeps_ite (keeps_ite keeps_next ?_) keeps_next
  refine keeps_withValue fun lo _ => keeps_withValue fun hi _ => keeps_ite keeps_next ?_
  refine keeps_withValue fun b _ => ?_
  dsimp only
  split
  next => exact keeps_next
  next st _ => exact keeps_next (txlen_judgeStatus st _)

/-- Of the block's operations and events only `TX.CLEAR`, `TX.PUSH`, `XCHG.ACK` and `RESET` write `txlen` (R25). -/
theorem keeps_txlen_exec {i : Instr} (hblock : isOperationOfBlock i = true) (hclear : i ≠ .txClear)
    (hpush : ∀ b, i ≠ .txPush b) (hack : i ≠ .xchgAck) (hreset : i ≠ .reset) (s : State) :
    Keeps State.txlen s (exec i s) := by
  cases i with
  | txClear => exact absurd rfl hclear
  | txPush b => exact absurd rfl (hpush b)
  | xchgAck => exact absurd rfl hack
  | reset => exact absurd rfl hreset
  | crcInit | crcUpdate _ | crcRead | cfgAddr _ => exact keeps_inIdle keeps_next
  | rdStatus => exact keeps_inDone keeps_next
  | rdRxlen => exact keeps_inSuccess keeps_next
  | xchgStart _ => exact keeps_inIdle (keeps_ite keeps_next (keeps_ite keeps_next keeps_next))
  | rdPhase | rdResult | rdAddr | rdTxlen => exact keeps_next
  | rdRsp _ => exact keeps_inSuccess (keeps_ite keeps_next (keeps_withValue fun _ _ => keeps_next))
  | chTxbyte => exact keeps_txlen_execChTxbyte s
  | chRxbyteLength _ | chRxbyteBody _ =>
    exact keeps_ite (keeps_withValue fun t ht => keeps_next (txlen_of_memWrite ht :)) keeps_next
  | chIoerr => exact keeps_ite keeps_next keeps_next
  | validate => exact keeps_txlen_execValidate s
  | _ => simp [isOperationOfBlock, Instr.format] at hblock

/-! ## The three operations -/

theorem decodeHost_cfgAddr {w : Word} (h : hi8 w = 0x10) : decodeHost w = .ok (.cfgAddr (lo8 w)) := by
  rw [decodeHost, h]; rfl

theorem decodeHost_txClear {w : Word} (h : hi8 w = 0x11) : decodeHost w = .ok .txClear := by
  rw [decodeHost, h]; rfl

theorem decodeHost_txPush {w : Word} (h : hi8 w = 0x12) : decodeHost w = .ok (.txPush (lo8 w)) := by
  rw [decodeHost, h]; rfl

section
variable {s : State} (h : s.phase = .idle)
include h

theorem exec_cfgAddr_idle (a : Byte) :
    exec (.cfgAddr a) s = .next { s with addr := a, answer := some ⟨.ok, 0⟩ } :=
  inIdle_idle h _

theorem exec_txClear_idle : exec .txClear s = .next { s with txlen := 0, answer := some ⟨.ok, 0⟩ } :=
  inIdle_idle h _

/-- R173 while the buffer has room. -/
theorem exec_txPush_of_room (b : Byte) (hroom : s.txlen.toNat < 251) :
    exec (.txPush b) s = .next
      { s with
        txbuf := s.txbuf.write s.txlen.toNat b, txlen := BitVec.ofNat 8 (s.txlen.toNat + 1)
        answer := some ⟨.ok, 0⟩ } := by
  refine (inIdle_idle h _).trans ((if_pos hroom).trans ?_)
  rw [memWrite_txbuf _ _ _ hroom]
  rfl

/-- R173 once the buffer is full: the overflow is remembered. -/
theorem exec_txPush_of_full (b : Byte) (hfull : 251 ≤ s.txlen.toNat) :
    exec (.txPush b) s = .next { s with txlen := 252, answer := some ⟨.ok, 0⟩ } :=
  (inIdle_idle h _).trans (if_neg (Nat.not_lt.mpr hfull))

end

/-- Outside Idle the three operations are refused (R171 to R173, R188). -/
theorem exec_staging_refused (b : Byte) {s : State} (h : s.phase ≠ .idle) {i : Instr}
    (hi : i ∈ [Instr.cfgAddr b, .txClear, .txPush b]) :
    exec i s = .next { s with answer := some ⟨.refused, 0⟩ } := by
  simp only [List.mem_cons, List.not_mem_nil, or_false] at hi
  rcases hi with rfl | rfl | rfl <;> exact inIdle_refused h _

/-- A push keeps the remembered overflow, whether it is taken or refused (R173). -/
theorem txlen_txPush_of_overflowed {b : Byte} {s t : State} (hover : s.txlen = 252)
    (h : exec (.txPush b) s = .next t) : t.txlen = 252 := by
  by_cases hp : s.phase = .idle
  · rw [exec_txPush_of_full hp b (hover ▸ by decide)] at h
    cases h
    rfl
  · rw [exec_staging_refused b hp (by simp)] at h
    cases h
    exact hover

/-- Settles O19: the word by its selector, the effect in Idle, the refusal elsewhere. -/
theorem cfgAddr : Obligations.CfgAddr :=
  ⟨fun _ => decodeHost_cfgAddr,
    fun a _ => ⟨fun h => exec_cfgAddr_idle h a, fun h => exec_staging_refused a h (by simp)⟩⟩

/-- Settles O20: the word by its selector, the effect in Idle, the refusal elsewhere. -/
theorem txClear : Obligations.TxClear :=
  ⟨fun _ => decodeHost_txClear, fun _ => ⟨exec_txClear_idle, fun h => exec_staging_refused 0 h (by simp)⟩⟩

/-- Settles O21: the pushed byte is found by the laws of a buffer write, and an overflow outlasts whatever keeps
`txlen` and every further push. -/
theorem txPush : Obligations.TxPush := by
  refine ⟨fun _ => decodeHost_txPush, fun b s => ⟨fun hp hroom => ?stored, fun hp => exec_txPush_of_full hp b,
    fun hp => exec_staging_refused b hp (by simp)⟩, fun i s t hblock hover hexec => ?overflowed⟩
  case stored =>
    have hcount : (BitVec.ofNat 8 (s.txlen.toNat + 1)).toNat = s.txlen.toNat + 1 :=
      Nat.mod_eq_of_lt (show s.txlen.toNat + 1 < 256 by omega)
    exact ⟨_, _, exec_txPush_of_room hp b hroom, hcount, Memory.read_write_same _ _ _,
      fun _ hi => Memory.read_write_other _ _ hi⟩
  case overflowed =>
    by_cases hpush : ∃ b, i = .txPush b
    · obtain ⟨b, rfl⟩ := hpush
      exact .inl (txlen_txPush_of_overflowed hover hexec)
    · by_contra hother
      simp only [not_or] at hother
      obtain ⟨hleft, hclear, hack, hreset⟩ := hother
      have hkeeps := keeps_txlen_exec hblock hclear (not_exists.mp hpush) hack hreset s
      exact hleft ((hkeeps t hexec).trans hover)

end Sys2Proof.Machine
end

section
/-! The host's reads (45_exchange_fsm.md R181 to R187): their words, their answers in the phases where they are legal
and their refusals, and what the invariant adds about an exchange that has ended. -/

namespace Sys2Proof.Machine

/-! ## The words -/

theorem decodeHost_rdPhase {w : Word} (h : hi8 w = 0x20) : decodeHost w = .ok .rdPhase := by
  rw [decodeHost, h]; rfl

theorem decodeHost_rdResult {w : Word} (h : hi8 w = 0x21) : decodeHost w = .ok .rdResult := by
  rw [decodeHost, h]; rfl

theorem decodeHost_rdStatus {w : Word} (h : hi8 w = 0x22) : decodeHost w = .ok .rdStatus := by
  rw [decodeHost, h]; rfl

theorem decodeHost_rdAddr {w : Word} (h : hi8 w = 0x23) : decodeHost w = .ok .rdAddr := by
  rw [decodeHost, h]; rfl

theorem decodeHost_rdRxlen {w : Word} (h : hi8 w = 0x24) : decodeHost w = .ok .rdRxlen := by
  rw [decodeHost, h]; rfl

theorem decodeHost_rdTxlen {w : Word} (h : hi8 w = 0x25) : decodeHost w = .ok .rdTxlen := by
  rw [decodeHost, h]; rfl

theorem decodeHost_rdRsp {w : Word} (h : hi8 w = 0x26) : decodeHost w = .ok (.rdRsp (lo8 w)) := by
  rw [decodeHost, h]; rfl

/-! ## The answers -/

/-- R181. -/
theorem exec_rdPhase (s : State) :
    exec .rdPhase s = .next { s with answer := some ⟨.ok, (phaseCode s.phase).setWidth 16⟩ } := rfl

/-- R182. -/
theorem exec_rdResult (s : State) : exec .rdResult s = .next { s with answer := some ⟨.ok, resultWord s⟩ } := rfl

/-- R183. -/
theorem exec_rdStatus_done {s : State} (h : s.phase = .success ∨ s.phase = .failed) :
    exec .rdStatus s = .next { s with answer := some ⟨.ok, s.resStatus.setWidth 16⟩ } :=
  inDone_done h _

/-- R183, R188. -/
theorem exec_rdStatus_refused {s : State} (h : s.phase ≠ .success) (h' : s.phase ≠ .failed) :
    exec .rdStatus s = .next { s with answer := some ⟨.refused, 0⟩ } :=
  inDone_refused h h' _

/-- R184. -/
theorem exec_rdAddr (s : State) : exec .rdAddr s = .next { s with answer := some ⟨.ok, s.addr.setWidth 16⟩ } := rfl

/-- R185. -/
theorem exec_rdRxlen_success {s : State} (h : s.phase = .success) :
    exec .rdRxlen s = .next { s with answer := some ⟨.ok, s.rxlen.setWidth 16⟩ } :=
  inSuccess_success h _

/-- R186. -/
theorem exec_rdTxlen (s : State) : exec .rdTxlen s = .next { s with answer := some ⟨.ok, s.txlen.setWidth 16⟩ } := rfl

/-- R187 past the last byte that may be read. -/
theorem exec_rdRsp_of_out_of_range {s : State} {i : Byte} (h : s.phase = .success)
    (hi : s.rxlen.toNat < i.toNat + 2) : exec (.rdRsp i) s = .next { s with answer := some ⟨.range, 0⟩ } :=
  (inSuccess_success h _).trans (if_pos hi)

/-- R187 at a byte that has been received. -/
theorem exec_rdRsp_of_read {s : State} {i b : Byte} (h : s.phase = .success) (hi : i.toNat + 2 ≤ s.rxlen.toNat)
    (hb : s.rxbuf.read i.toNat = some b) :
    exec (.rdRsp i) s = .next { s with answer := some ⟨.ok, b.setWidth 16⟩ } := by
  refine (inSuccess_success h _).trans ((if_neg (Nat.not_lt.mpr hi)).trans ?_)
  rw [memRead_of_written .rxbuf i.toNat s b i.isLt hb]
  rfl

/-- Outside Success the two reads of a response are refused (R185, R187, R188). -/
theorem exec_readOfResponse_refused (k : Byte) {s : State} (h : s.phase ≠ .success) {i : Instr}
    (hi : i ∈ [Instr.rdRxlen, .rdRsp k]) : exec i s = .next { s with answer := some ⟨.refused, 0⟩ } := by
  simp only [List.mem_cons, List.not_mem_nil, or_false] at hi
  rcases hi with rfl | rfl <;> exact inSuccess_refused h _

/-! ## The answered values -/

/-- A byte on the 16 answer lines has zeros above it (R75). -/
theorem toNat_setWidth_byte (b : Byte) : (b.setWidth 16).toNat = b.toNat :=
  BitVec.toNat_setWidth_of_le (by decide)

/-- The word that `RD.RESULT` answers for a class and a cause (R182). -/
def failureWord (f : ResClass × Cause) : Word :=
  ((0 : BitVec 5) ++ classCode f.1 ++ causeCode f.2 : BitVec (5 + 3 + 8))

theorem resultWord_eq_failureWord (s : State) : resultWord s = failureWord (s.resClass, s.resCause) := rfl

/-- The class stands above the cause, which fills the low byte (R182). -/
theorem toNat_failureWord (f : ResClass × Cause) :
    (failureWord f).toNat = 256 * (classCode f.1).toNat + (causeCode f.2).toNat := by
  have hlow : (causeCode f.2).toNat < 2 ^ 8 := (causeCode f.2).isLt
  have hhigh : ((0 : BitVec 5) ++ classCode f.1).toNat = (classCode f.1).toNat := by
    rw [BitVec.toNat_append, BitVec.ofNat_eq_ofNat, BitVec.toNat_zero, Nat.zero_shiftLeft, Nat.zero_or]
  rw [failureWord, BitVec.toNat_append, hhigh, ← Nat.shiftLeft_add_eq_or_of_lt hlow, Nat.shiftLeft_eq, Nat.mul_comm]

/-- The words of the nine pairs that a failed exchange can record (R91, R211). -/
theorem map_failureWord_recordedFailures :
    recordedFailures.map failureWord =
      [0x0101, 0x0202, 0x0302, 0x0402, 0x0410, 0x0411, 0x0420, 0x0421, 0x0422] := rfl

/-! ## In the invariant -/

theorem Inv.resultWord_of_not_failed {s : State} (hinv : Inv s) (h : s.phase ≠ .failed) : resultWord s = 0 := by
  have hcls : s.resClass = .none := by_contra fun hne => h (hinv.failed.mpr hne)
  rw [resultWord_eq_failureWord, hcls, hinv.noCause hcls]
  rfl

theorem Inv.resultWord_mem_of_failed {s : State} (hinv : Inv s) (h : s.phase = .failed) :
    resultWord s ∈ recordedFailures.map failureWord := by
  rw [resultWord_eq_failureWord]
  exact List.mem_map_of_mem (hinv.recorded (hinv.failed.mp h))

/-- Every byte of a validated response has been written (R40 (f)). -/
theorem Inv.isSome_read_of_success {s : State} (hinv : Inv s) (h : s.phase = .success) {i : Nat}
    (hi : i ≤ s.rxlen.toNat) : (s.rxbuf.read i).isSome := by
  have hvalidated := hinv.success h
  exact hvalidated.receiving.written i (by rw [hvalidated.complete]; omega)

/-! ## The obligations -/

/-- Settles O31: the four reads answer their register in every state; in the invariant the result registers hold
nothing outside Failed and one of the recorded pairs in Failed. -/
theorem readsOfAnyPhase : Obligations.ReadsOfAnyPhase := by
  refine ⟨fun _ => ⟨decodeHost_rdPhase, decodeHost_rdResult, decodeHost_rdAddr, decodeHost_rdTxlen⟩,
    fun s => ⟨⟨_, exec_rdPhase s, ?phase⟩, ⟨_, exec_rdResult s, ?result⟩,
      ⟨_, exec_rdAddr s, toNat_setWidth_byte _⟩, ⟨_, exec_rdTxlen s, toNat_setWidth_byte _⟩⟩,
    fun s hinv hp => ?notFailed, fun s hinv hp => ?failed⟩
  case phase => cases s.phase <;> rfl
  case result =>
    rw [resultWord_eq_failureWord, toNat_failureWord]
    congr 1
    · cases s.resClass <;> rfl
    · cases s.resCause <;> rfl
  case notFailed => rw [exec_rdResult, hinv.resultWord_of_not_failed hp]
  case failed => exact ⟨_, map_failureWord_recordedFailures ▸ hinv.resultWord_mem_of_failed hp, exec_rdResult s⟩

/-- Settles O32: the two reads by phase; the bound and the zero status are the invariant's. -/
theorem readsOfAnEndedExchange : Obligations.ReadsOfAnEndedExchange := by
  refine ⟨fun _ => ⟨decodeHost_rdStatus, decodeHost_rdRxlen⟩,
    fun s => ⟨fun hp => ⟨_, exec_rdStatus_done hp, toNat_setWidth_byte _⟩, exec_rdStatus_refused,
      fun hp => ⟨_, exec_rdRxlen_success hp, toNat_setWidth_byte _⟩,
      fun hp => exec_readOfResponse_refused 0 hp (by simp)⟩,
    fun s hinv hp => (hinv.success hp).longEnough, fun s hinv hp hstatus hunknown => ?zero⟩
  case zero =>
    have hzero : s.resStatus = 0 := hinv.noStatus (by simp [hp]) hstatus hunknown
    rw [exec_rdStatus_done (.inr hp), hzero]
    rfl

/-- Settles O33: the three answers by phase and index; in the invariant a response in Success is complete. -/
theorem rdRsp : Obligations.RdRsp :=
  ⟨fun _ => decodeHost_rdRsp,
    fun i _ => ⟨fun hp => exec_readOfResponse_refused i hp (by simp), exec_rdRsp_of_out_of_range,
      fun _ hp hi hb => ⟨_, exec_rdRsp_of_read hp hi hb, toNat_setWidth_byte _⟩⟩,
    fun _ _ hinv hp hi => hinv.isSome_read_of_success hp (Nat.le_of_add_right_le hi)⟩

end Sys2Proof.Machine
end

section
/-! The payload parsers (45_exchange_fsm.md R189 to R191): the tag records of an Inventory payload, and the
reader-information record. -/

namespace Sys2Proof

/-! ## Tag records (R189) -/

/-- The bytes that announce and hold `tags`: each tag behind its length byte (R189). -/
def tagRecords (tags : List (List Byte)) : List Byte :=
  (tags.map fun tag => BitVec.ofNat 8 tag.length :: tag).flatten

theorem tagRecords_cons (tag : List Byte) (tags : List (List Byte)) :
    tagRecords (tag :: tags) = BitVec.ofNat 8 tag.length :: (tag ++ tagRecords tags) := rfl

theorem parseTags_of_missing (count : Nat) : parseTags (count + 1) [] = .error badPayload := rfl

theorem parseTags_of_overrun (count : Nat) {l : Byte} {bytes : List Byte} (h : bytes.length < l.toNat) :
    parseTags (count + 1) (l :: bytes) = .error badPayload :=
  if_pos h

/-- A record that stands whole in the payload is taken off, and the rest is parsed on. -/
theorem parseTags_of_record (count : Nat) {l : Byte} {tag : List Byte} (bytes : List Byte)
    (h : l.toNat = tag.length) :
    parseTags (count + 1) (l :: (tag ++ bytes)) = (parseTags count bytes).map (tag :: ·) := by
  have hfits : ¬ (tag ++ bytes).length < l.toNat := by simp [h]
  rw [parseTags, if_neg hfits, h, List.drop_left, List.take_left]
  cases parseTags count bytes <;> rfl

/-- Records in front are taken off in their order, whatever the parser makes of what follows them. -/
theorem parseTags_tagRecords_append (count : Nat) (bytes : List Byte) {tags : List (List Byte)}
    (h : ∀ tag ∈ tags, tag.length ≤ 255) :
    parseTags (tags.length + count) (tagRecords tags ++ bytes) = (parseTags count bytes).map (tags ++ ·) := by
  induction tags with
  | nil =>
    rw [List.length_nil, Nat.zero_add]
    cases hrest : parseTags count bytes <;> simp [tagRecords, hrest, Except.map]
  | cons tag tags ih =>
    obtain ⟨htag, htags⟩ := List.forall_mem_cons.mp h
    have hlength : (BitVec.ofNat 8 tag.length).toNat = tag.length :=
      Nat.mod_eq_of_lt (Nat.lt_succ_of_le htag)
    rw [List.length_cons, Nat.add_right_comm, tagRecords_cons, List.cons_append, List.append_assoc,
      parseTags_of_record _ _ hlength, ih htags]
    cases parseTags count bytes <;> rfl

/-- Where more records are announced than stand in front, an error in the next one is the answer. -/
theorem parseTags_of_error_after_tagRecords {count : Nat} {tags : List (List Byte)} {bytes : List Byte}
    (h : ∀ tag ∈ tags, tag.length ≤ 255) (hmore : tags.length < count)
    (herror : ∀ k, parseTags (k + 1) bytes = .error badPayload) :
    parseTags count (tagRecords tags ++ bytes) = .error badPayload := by
  obtain ⟨k, rfl⟩ := Nat.exists_eq_add_of_lt hmore
  rw [Nat.add_assoc, parseTags_tagRecords_append _ _ h, herror]
  rfl

/-- For a status other than NoTags the first byte counts the records that follow (R189). -/
theorem parseInventory_of_ne_noTags {st : Option Status} (h : st ≠ some (.named .noTags)) (count : Byte)
    (bytes : List Byte) : parseInventory st (count :: bytes) = parseTags count.toNat bytes :=
  if_neg h

/-! ## The reader-information record (R190) -/

theorem parseReaderInformation_of_length_ne {payload : List Byte} (h : payload.length ≠ 8) :
    parseReaderInformation payload = .error ⟨.program, .badPayload⟩ :=
  if_pos h

/-! ## The obligations

In a namespace of its own, where the theorems' names do not hide the model's parsers. -/

namespace PayloadParsers

/-- Settles O49: the records that are there are taken off, and what follows them decides. -/
theorem parseInventory : Obligations.ParseInventory := by
  refine ⟨fun _ => if_pos rfl, fun st hst => ⟨if_neg hst, fun count tags htags =>
    ⟨fun more hcount => ?complete, fun hmore => ?missing, fun l short hmore hshort => ?overrun⟩⟩, by decide⟩
  all_goals rw [parseInventory_of_ne_noTags hst]
  case complete =>
    have hparse := parseTags_tagRecords_append 0 more htags
    rw [Nat.add_zero, hcount] at hparse
    exact hparse.trans (congrArg Except.ok (List.append_nil tags))
  case missing =>
    have hparse := parseTags_of_error_after_tagRecords htags hmore parseTags_of_missing
    rwa [List.append_nil] at hparse
  case overrun => exact parseTags_of_error_after_tagRecords htags hmore fun k => parseTags_of_overrun k hshort

/-- Settles O50: the length decides, and the eight fields stand in wire order. -/
theorem parseRecords : Obligations.ParseRecords :=
  ⟨fun _ => parseReaderInformation_of_length_ne, fun _ _ _ _ _ _ _ _ => rfl, fun _ => rfl⟩

end PayloadParsers
end Sys2Proof
end

section
/-! The CRC as linear algebra over exclusive or (40_crc.md R101 to R107): the byte step in its four forms, the
properties that follow from linearity, and the loop over a message with its worked values. -/

namespace Sys2Proof

/-! ## Linearity -/

/-- The feedback is linear, and so is the bit step (R107 (b)). -/
theorem crcBit_xor (c₁ c₂ : Word) (d₁ d₂ : Bool) :
    crcBit (c₁ ^^^ c₂) (d₁ ^^ d₂) = crcBit c₁ d₁ ^^^ crcBit c₂ d₂ := by
  refine BitVec.eq_of_getLsbD_eq fun i _ => ?_
  simp only [BitVec.getLsbD_xor, getLsbD_crcBit, Bool.and_xor_distrib_right, Bool.xor_assoc, Bool.xor_left_comm]

/-- The bits `ks` of `b`, in this order, through the bit step: `crcByte` is the case of the bits 0 to 7 (R102). -/
def crcBits (ks : List Nat) (c : Word) (b : Byte) : Word := ks.foldl (fun c k => crcBit c (b.getLsbD k)) c

theorem crcBits_cons (k : Nat) (ks : List Nat) (c : Word) (b : Byte) :
    crcBits (k :: ks) c b = crcBits ks (crcBit c (b.getLsbD k)) b := rfl

theorem crcByte_eq_crcBits (c : Word) (b : Byte) : crcByte c b = crcBits (List.range' 0 8) c b := rfl

theorem crcBits_xor (ks : List Nat) (c₁ c₂ : Word) (b₁ b₂ : Byte) :
    crcBits ks (c₁ ^^^ c₂) (b₁ ^^^ b₂) = crcBits ks c₁ b₁ ^^^ crcBits ks c₂ b₂ := by
  induction ks generalizing c₁ c₂ with
  | nil => rfl
  | cons k ks ih => rw [crcBits_cons, BitVec.getLsbD_xor, crcBit_xor, ih, crcBits_cons, crcBits_cons]

/-- R107 (b). -/
theorem crcByte_xor (c₁ c₂ : Word) (b₁ b₂ : Byte) :
    crcByte (c₁ ^^^ c₂) (b₁ ^^^ b₂) = crcByte c₁ b₁ ^^^ crcByte c₂ b₂ :=
  crcBits_xor _ c₁ c₂ b₁ b₂

theorem crcByte_zero_zero : crcByte 0 0 = 0 := by decide

/-! ## A register that meets its own bits -/

/-- A data bit equal to bit 0 of the register gives no feedback (R101). -/
theorem crcBit_self (c : Word) : crcBit c (c.getLsbD 0) = c >>> 1 := by
  simp [crcBit]

theorem crcBits_self (c : Word) {k n : Nat} (h : k + n ≤ 8) :
    crcBits (List.range' k n) (c >>> k) (lo8 c) = c >>> (k + n) := by
  induction n generalizing k with
  | zero => rfl
  | succ n ih =>
    have hbit : (lo8 c).getLsbD k = (c >>> k).getLsbD 0 := by
      simp [lo8, show k < 8 by omega]
    rw [List.range'_succ, crcBits_cons, hbit, crcBit_self, ← BitVec.shiftRight_add, ih (by omega),
      Nat.add_assoc, Nat.add_comm 1]

/-- The low byte of the register, as data, only shifts it out. -/
theorem crcByte_lo8 (c : Word) : crcByte c (lo8 c) = c >>> 8 := crcBits_self c (k := 0) (n := 8) (Nat.le_refl 8)

theorem lo8_xor (c₁ c₂ : Word) : lo8 (c₁ ^^^ c₂) = lo8 c₁ ^^^ lo8 c₂ := by
  refine BitVec.eq_of_getLsbD_eq fun i hi => ?_
  simp [lo8, hi]

theorem lo8_setWidth (b : Byte) : lo8 (b.setWidth 16) = b := by
  refine BitVec.eq_of_getLsbD_eq fun i hi => ?_
  simp [lo8, hi, show i < 16 by omega]

theorem setWidth_shiftRight_eight (b : Byte) : (b.setWidth 16) >>> 8 = 0 := by
  refine BitVec.eq_of_getLsbD_eq fun i _ => ?_
  simp

theorem hi8_eq_lo8_shiftRight (c : Word) : hi8 c = lo8 (c >>> 8) := by
  refine BitVec.eq_of_getLsbD_eq fun i hi => ?_
  simp [lo8, hi8, hi]

/-! ## The other forms of the byte step (R102, R105, R106) -/

/-- The byte may be exclusive-ored into the register first (R102). -/
theorem crcByte_eq_crcByte_zero (c : Word) (b : Byte) : crcByte c b = crcByte (c ^^^ b.setWidth 16) 0 := by
  have hself : crcByte (b.setWidth 16) b = 0 := by
    have := crcByte_lo8 (b.setWidth 16)
    rwa [lo8_setWidth, setWidth_shiftRight_eight] at this
  calc crcByte c b
      = crcByte c b ^^^ crcByte (b.setWidth 16) b := by rw [hself]; exact BitVec.xor_zero.symm
    _ = crcByte (c ^^^ b.setWidth 16) 0 := by rw [← crcByte_xor, BitVec.xor_self]; rfl

theorem crcByteXorFirst_eq (c : Word) (b : Byte) : crcByteXorFirst c b = crcByte (c ^^^ b.setWidth 16) 0 := by
  have hstep (x : Word) (k : Nat) :
      crcBit x ((0 : Byte).getLsbD k) = if x.getLsbD 0 then (x >>> 1) ^^^ crcPolyRev else x >>> 1 := by
    simp [crcBit]
  simp only [crcByte, hstep]
  rfl

/-- The byte step is a shift and the byte step of a zero register, which a table can hold (R105). -/
theorem crcByte_eq_shift_xor (c : Word) (b : Byte) :
    crcByte c b = (c >>> 8) ^^^ crcByte 0 (lo8 (c ^^^ b.setWidth 16)) := by
  calc crcByte c b
      = crcByte (c ^^^ 0) (lo8 c ^^^ (lo8 c ^^^ b)) := by
        rw [← BitVec.xor_assoc, BitVec.xor_self, BitVec.zero_xor]
        exact congrArg (crcByte · b) BitVec.xor_zero.symm
    _ = (c >>> 8) ^^^ crcByte 0 (lo8 (c ^^^ b.setWidth 16)) := by
        rw [crcByte_xor, crcByte_lo8, lo8_xor, lo8_setWidth]

/-- Every printed entry, by evaluation of the byte step at its index (R104). -/
theorem crcTable_eq_map : crcTable = (List.range 256).map fun i => crcByte 0 (BitVec.ofNat 8 i) := by
  decide +kernel

theorem getElem?_crcTable {i : Nat} (h : i < 256) : crcTable[i]? = some (crcByte 0 (BitVec.ofNat 8 i)) := by
  simp [crcTable_eq_map, h]

theorem getD_crcTable (t : Byte) : crcTable.getD t.toNat 0 = crcByte 0 t := by
  rw [List.getD_eq_getElem?_getD, getElem?_crcTable t.isLt, BitVec.ofNat_toNat, BitVec.setWidth_eq]
  rfl

/-- What R106 makes of the byte step of a zero register. -/
def crcShiftEntry (t : Byte) : Word :=
  let u : Byte := t ^^^ (t <<< 4)
  (u.setWidth 16 <<< 8) ^^^ (u.setWidth 16 <<< 3) ^^^ (u.setWidth 16 >>> 4)

/-- The 256 values of R106 are the entries of the table. -/
theorem crcTable_eq_map_crcShiftEntry : crcTable = (List.range 256).map fun i => crcShiftEntry (BitVec.ofNat 8 i) := by
  decide +kernel

theorem crcByte_zero_eq_crcShiftEntry (t : Byte) : crcByte 0 t = crcShiftEntry t := by
  have hentry : crcTable[t.toNat]? = some (crcShiftEntry t) := by
    simp [crcTable_eq_map_crcShiftEntry, t.isLt]
  rw [← getD_crcTable, List.getD_eq_getElem?_getD, hentry]
  rfl

/-! ## Injectivity -/

/-- Bit 15 of the result is the feedback; with it, every bit of the result gives back one of the register. -/
theorem crcBit_injective (d : Bool) : Function.Injective fun c => crcBit c d := by
  intro c₁ c₂ h
  have hbit (i : Nat) : (crcBit c₁ d).getLsbD i = (crcBit c₂ d).getLsbD i := congrArg (·.getLsbD i) h
  simp only [getLsbD_crcBit] at hbit
  have hzero : c₁.getLsbD 0 = c₂.getLsbD 0 := by
    have hfeedback := hbit 15
    rw [BitVec.getLsbD_of_ge c₁ _ (by decide), BitVec.getLsbD_of_ge c₂ _ (by decide)] at hfeedback
    rw [show crcPolyRev.getLsbD 15 = true from rfl] at hfeedback
    simpa using hfeedback
  refine BitVec.eq_of_getLsbD_eq fun i _ => ?_
  cases i with
  | zero => exact hzero
  | succ i =>
    have hnext := hbit i
    rw [hzero] at hnext
    exact Bool.xor_left_inj.mp hnext

theorem crcBits_injective (ks : List Nat) (b : Byte) : Function.Injective fun c => crcBits ks c b := by
  induction ks with
  | nil => exact Function.injective_id
  | cons k ks ih => exact ih.comp (crcBit_injective (b.getLsbD k))

theorem crcByte_injective (b : Byte) : Function.Injective fun c => crcByte c b := crcBits_injective _ b

/-- There are finitely many words. -/
theorem bijective_of_injective_word {f : Word → Word} (h : Function.Injective f) : Function.Bijective f := by
  have : Finite Word := Finite.of_injective BitVec.toFin BitVec.toFin_injective
  exact Finite.injective_iff_bijective.mp h

/-! ## Two bytes behind a register (R107 (d), (e)) -/

theorem crcFrom_pair (c : Word) (a b : Byte) : crcFrom c [a, b] = crcByte (crcByte c a) b := rfl

/-- The two halves of a word, low byte first, shift it out. -/
theorem crcFrom_pair_self (c : Word) : crcFrom c [lo8 c, hi8 c] = 0 := by
  rw [crcFrom_pair, crcByte_lo8, hi8_eq_lo8_shiftRight, crcByte_lo8, ← BitVec.shiftRight_add]
  exact BitVec.ushiftRight_eq_zero (Nat.le_refl 16)

/-- Two bytes act on the register as if they were exclusive-ored into it first. -/
theorem crcFrom_pair_eq (c : Word) (a b : Byte) : crcFrom c [a, b] = crcFrom (c ^^^ le16 a b) [0, 0] := by
  have hself : crcFrom (le16 a b) [a, b] = 0 := by
    simpa only [lo8_le16, hi8_le16] using crcFrom_pair_self (le16 a b)
  calc crcFrom c [a, b]
      = crcFrom c [a, b] ^^^ crcFrom (le16 a b) [a, b] := by rw [hself]; exact BitVec.xor_zero.symm
    _ = crcFrom (c ^^^ le16 a b) [0, 0] := by
        simp only [crcFrom_pair, ← crcByte_xor, BitVec.xor_self]
        rfl

theorem crcFrom_pair_zero_injective : Function.Injective fun c => crcFrom c [0, 0] :=
  (crcByte_injective 0).comp (crcByte_injective 0)

/-- Two bytes behind a register leave zero exactly when they are its halves, low byte first. -/
theorem crcFrom_pair_eq_zero_iff {c : Word} {a b : Byte} : crcFrom c [a, b] = 0 ↔ c = le16 a b := by
  have hzero : crcFrom 0 [0, 0] = 0 := by rw [crcFrom_pair, crcByte_zero_zero, crcByte_zero_zero]
  rw [crcFrom_pair_eq]
  calc crcFrom (c ^^^ le16 a b) [0, 0] = 0
      ↔ crcFrom (c ^^^ le16 a b) [0, 0] = crcFrom 0 [0, 0] := by rw [hzero]
    _ ↔ c ^^^ le16 a b = 0 := crcFrom_pair_zero_injective.eq_iff
    _ ↔ c = le16 a b := BitVec.xor_eq_zero_iff

/-- From a fixed register two bytes reach every value once (R107 (d)). -/
theorem crcFrom_pair_bijective (c : Word) : Function.Bijective fun ab : Byte × Byte => crcFrom c [ab.1, ab.2] := by
  have hwords : Function.Bijective fun ab : Byte × Byte => le16 ab.1 ab.2 :=
    ⟨fun _ _ h => le16_inj.mp h, fun v => ⟨(lo8 v, hi8 v), le16_lo8_hi8 v⟩⟩
  have hmixed : Function.Bijective fun v : Word => c ^^^ v :=
    bijective_of_injective_word fun _ _ => (BitVec.xor_right_inj c).mp
  simp only [crcFrom_pair_eq c]
  exact (bijective_of_injective_word crcFrom_pair_zero_injective).comp (hmixed.comp hwords)

theorem crc_append (m t : List Byte) : crc (m ++ t) = crcFrom (crc m) t := List.foldl_append

/-- The residue of a message with two bytes behind it (R107 (e), R155). -/
theorem crc_append_pair_eq_zero_iff {m : List Byte} {a b : Byte} : crc (m ++ [a, b]) = 0 ↔ crc m = le16 a b := by
  rw [crc_append, crcFrom_pair_eq_zero_iff]

/-! ## Fixed points of the bit step (R107 (g)) -/

/-- A fixed point is determined by its bit 0: each bit follows from the next higher one. -/
theorem crcBit_fixed_ext {v w : Word} (hv : crcBit v false = v) (hw : crcBit w false = w)
    (h : v.getLsbD 0 = w.getLsbD 0) : v = w := by
  have hbits (k : Nat) : v.getLsbD (16 - k) = w.getLsbD (16 - k) := by
    induction k with
    | zero => rw [BitVec.getLsbD_of_ge v _ (by decide), BitVec.getLsbD_of_ge w _ (by decide)]
    | succ k ih =>
      by_cases hk : k < 16
      · have hnext : 16 - k = 16 - (k + 1) + 1 := by omega
        calc v.getLsbD (16 - (k + 1))
            = (crcBit v false).getLsbD (16 - (k + 1)) := by rw [hv]
          _ = (crcBit w false).getLsbD (16 - (k + 1)) := by
              rw [getLsbD_crcBit, getLsbD_crcBit, ← hnext, ih, h]
          _ = w.getLsbD (16 - (k + 1)) := by rw [hw]
      · rw [show 16 - (k + 1) = 0 by omega, h]
  refine BitVec.eq_of_getLsbD_eq fun i hi => ?_
  simpa [show 16 - (16 - i) = i by omega] using hbits (16 - i)

theorem crcBit_fixed_iff {v : Word} (h : v ≠ 0) : crcBit v false = v ↔ v = 0xF80F := by
  constructor
  · intro hfixed
    cases hbit : v.getLsbD 0 with
    | false => exact absurd (crcBit_fixed_ext (w := 0) hfixed (by decide) hbit) h
    | true => exact crcBit_fixed_ext hfixed (by decide) hbit
  · rintro rfl
    decide

/-! ## The CRC of a message by the host operations (R111, R198) -/

namespace Machine

/-- One `CRC.UPDATE` for each byte: the loop of R103 on the register. -/
theorem forEach_crcUpdate (m : List Byte) {s : State} (hp : s.phase = .idle) (ha : s.answer = some ⟨.ok, 0⟩) :
    forEach (fun b => exec (.crcUpdate b)) m s = .next { s with crc := crcFrom s.crc m } := by
  induction m generalizing s with
  | nil => rfl
  | cons b m ih =>
    rw [forEach_cons, exec_crcUpdate_idle b hp, andThen_next]
    refine (ih (s := { s with crc := crcByte s.crc b, answer := some ⟨.ok, 0⟩ }) hp rfl).trans ?_
    rw [← ha, crcFrom_cons]

/-- Settles O8: the seed, the loop and the read-out, one after another. -/
theorem crcOfMessageByOperations : Obligations.CrcOfMessageByOperations := by
  intro m s hp
  have hsequence : exec (.pseudoCrc m) s =
      andThen (exec .crcInit s) fun s =>
        andThen (forEach (fun b => exec (.crcUpdate b)) m s) (exec .crcRead) := rfl
  refine ⟨?_, hsequence⟩
  have hloop := forEach_crcUpdate m (s := { s with crc := 0xFFFF, answer := some ⟨.ok, 0⟩ }) hp rfl
  rw [hsequence, exec_crcInit_idle hp, andThen_next, hloop, andThen_next]
  exact exec_crcRead_idle hp

end Machine

/-! ## The obligations -/

/-- Settles O2: the eight bit steps are the loop written out, and the two forms agree by linearity. -/
theorem crcByteStep : Obligations.CrcByteStep :=
  ⟨fun c b => ⟨rfl, (crcByte_eq_crcByte_zero c b).trans (crcByteXorFirst_eq c b).symm⟩, by decide +kernel⟩

/-- Settles O5: both forms are the shift and the table entry at the low byte. -/
theorem crcOtherForms : Obligations.CrcOtherForms := by
  intro c b
  refine ⟨?table, ?shift⟩
  all_goals rw [crcByte_eq_shift_xor]
  case table => rw [crcByteTable, getD_crcTable]
  case shift =>
    rw [crcByte_zero_eq_crcShiftEntry, crcByteShift, crcShiftEntry]
    simp only [BitVec.xor_assoc]

/-- Settles O6: all but the evaluated values follow from linearity and injectivity. -/
theorem crcProperties : Obligations.CrcProperties := by
  refine ⟨crcByte_xor, crcByte_zero_zero, fun d => bijective_of_injective_word (crcBit_injective d),
    fun b => bijective_of_injective_word (crcByte_injective b), crcFrom_pair_bijective, fun m => ?own,
    fun m a b h => (crc_append_pair_eq_zero_iff.mp h).symm, by decide +kernel, by decide +kernel, by decide +kernel,
    fun v => crcBit_fixed_iff⟩
  case own => exact crc_append_pair_eq_zero_iff.mpr (le16_lo8_hi8 (crc m)).symm

/-- Settles O3: the loop is a left fold over the message. -/
theorem crcOfMessage : Obligations.CrcOfMessage :=
  ⟨fun _ => rfl, crcFrom_nil, crcFrom_cons, rfl, crc_append, by decide +kernel⟩

/-- Settles O4. -/
theorem crcTablePrinted : Obligations.CrcTablePrinted :=
  ⟨by decide +kernel, fun _ => getElem?_crcTable, by decide +kernel, by decide +kernel, by decide +kernel⟩

/-- A buffer of at least two bytes is what stands before its last two, and these. -/
theorem take_append_last_two {buf : List Byte} (h : 2 ≤ buf.length) :
    buf.take (buf.length - 2) ++ [buf.getD (buf.length - 2) 0, buf.getD (buf.length - 1) 0] = buf := by
  have hdrop : buf.drop (buf.length - 2) = [buf.getD (buf.length - 2) 0, buf.getD (buf.length - 1) 0] := by
    rw [List.drop_eq_getElem_cons (by omega), List.drop_eq_getElem_cons (by omega),
      List.drop_of_length_le (by omega), List.getD_eq_getElem _ _ (by omega), List.getD_eq_getElem _ _ (by omega)]
    simp only [show buf.length - 2 + 1 = buf.length - 1 by omega]
  rw [← hdrop, List.take_append_drop]

/-- R155. -/
theorem trailerOk_iff_crc_eq_zero {buf : List Byte} (h : 2 ≤ buf.length) : trailerOk buf = true ↔ crc buf = 0 := by
  rw [trailerOk_iff, ← crc_append_pair_eq_zero_iff, take_append_last_two h]

/-- Settles O16: the residue of what stands before the last two bytes, with these behind it. -/
theorem residueForm : Obligations.ResidueForm :=
  ⟨fun _ h => ⟨(trailerOk_iff_crc_eq_zero h).symm.trans trailerOk_iff, trailerOk_iff_crc_eq_zero h⟩,
    by decide +kernel, by decide +kernel⟩

end Sys2Proof
end

section
/-! The round trips: a frame encoded and checked (43_response_codec.md R154), and an instruction encoded and decoded
(30_encoding.md R71, R72, R74). Between them stands the payload builder of KillTag (42_payload_builders.md R135). -/

namespace Sys2Proof

/-! ## Frames (R120, R150, R151, R154) -/

/-- The trailer that `encodeFrame` appends is the one that passes the CRC test. -/
theorem trailerOk_append_trailer (head : List Byte) : trailerOk (head ++ trailer (crc head)) = true := by
  rw [trailerOk_iff_crc_eq_zero (by simp [trailer])]
  exact crc_append_pair_eq_zero_iff.mpr (le16_lo8_hi8 (crc head)).symm

/-- R154, first law. -/
theorem checkFrame_of_encodeFrame {address code : Byte} {body frame : List Byte}
    (h : encodeFrame address code body = .ok frame) : checkFrame frame = .ok ⟨address, code, body⟩ := by
  by_cases hlong : 251 < body.length
  · rw [encodeFrame_of_too_long address code hlong] at h
    cases h
  · have hn := toNat_lengthByte (Nat.not_lt.mp hlong)
    rw [encodeFrame_of_length_byte address code hn] at h
    cases h
    rw [checkFrame_eq_afterFrameTests, afterFrameTests_eq_ok_iff]
    refine ⟨⟨?counts, ?long, trailerOk_append_trailer _⟩, ?fields⟩
    case counts => simpa [trailer] using hn
    case long => simp [trailer]
    case fields => simp [trailer]

/-- R154, second law: the status byte is the first of the body. -/
theorem decodeResponse_of_encodeFrame {p : Params} {address echo b : Byte} {st : Status}
    {payload frame : List Byte} (hst : statusDecode p b = some st)
    (h : encodeFrame address echo (b :: payload) = .ok frame) :
    decodeResponse p frame = .ok ⟨address, echo, st, payload⟩ :=
  decodeResponse_eq_ok_iff.mpr ⟨_, b, payload, st, checkFrame_of_encodeFrame h, rfl, hst, rfl⟩

/-- A body that fits is framed. -/
theorem exists_encodeFrame (address code : Byte) {body : List Byte} (h : body.length ≤ 251) :
    ∃ frame, encodeFrame address code body = .ok frame :=
  ⟨_, encodeFrame_of_length_byte address code (toNat_lengthByte h)⟩

/-- Settles O15: the frame passes the three tests, and its fields stand where they were put. -/
theorem frameRoundTrip : Obligations.FrameRoundTrip := by
  refine ⟨fun address code body hlen => ?frame, fun p address echo b st payload hst hlen => ?response⟩
  case frame =>
    obtain ⟨frame, h⟩ := exists_encodeFrame address code hlen
    exact ⟨frame, h, checkFrame_of_encodeFrame h⟩
  case response =>
    obtain ⟨frame, h⟩ := exists_encodeFrame address echo (body := b :: payload) (Nat.succ_le_succ hlen)
    exact ⟨frame, h, decodeResponse_of_encodeFrame hst h⟩

/-! ## The builder of KillTag (R135) -/

theorem buildKill_of_rejected {c : KillCommand}
    (h : evenLength c.epc = false ∨ passwordField c.password = none
      ∨ maskField c.maskAddress c.maskLength = none) :
    buildKill c = .error badParameter := by
  unfold buildKill
  split
  next he hpw hmask => simp [he, hpw, hmask] at h
  next => rfl

theorem buildKill_of_accepted {c : KillCommand} {pw4 mask : List Byte}
    (he : evenLength c.epc = true) (hpw : passwordField c.password = some pw4)
    (hmask : maskField c.maskAddress c.maskLength = some mask) :
    buildKill c = .ok ([wordCount c.epc] ++ c.epc ++ pw4 ++ mask) := by
  rw [buildKill, he, hpw, hmask]
  rfl

namespace PayloadBuilders

/-- Settles O12: as O10 and O11, with no field between the EPC and the password. -/
theorem buildKill : Obligations.BuildKill := by
  refine ⟨fun p c => ⟨fun hbad => ?rejected, fun hepc hpw hmask => ?accepted,
    fun _ _ => getElem?_two_of_encodeBuilt⟩, rfl, by decide +kernel⟩
  case rejected =>
    refine buildKill_of_rejected ?_
    rwa [evenLength_eq_false_iff, passwordField_eq_none_iff, maskField_eq_none_iff]
  case accepted =>
    have hpw4 := passwordField_of_length hpw
    have hmaskBytes := maskField_of_isSome_eq hmask
    refine ⟨_, _, buildKill_of_accepted (evenLength_eq_true_iff.mpr hepc) hpw4 hmaskBytes,
      toNat_wordCount, (List.append_assoc ..).symm, ?length⟩
    rw [length_append_passwordField_maskField hpw4 hmaskBytes]
    simp only [List.length_append, List.length_cons, List.length_nil]
    split <;> omega

end PayloadBuilders

/-! ## The fields of a payload read back (R82, R84, R130) -/

/-- Words of even length that fit a frame are counted by their count byte. -/
theorem wordCount_of_wfWords {bytes : List Byte} (h : wfWords bytes = true) (hlen : bytes.length ≤ 251) :
    evenLength bytes = true ∧ 2 * (wordCount bytes).toNat = bytes.length := by
  have heven : bytes.length % 2 = 0 := evenLength_eq_true_iff.mp h
  refine ⟨h, ?_⟩
  rw [toNat_wordCount (by omega)]
  omega

/-- A password in its one spelling is four bytes on the wire and is read back from them (log 12). -/
theorem parsePassword_passwordField {password : Option (List Byte)} (h : wfSentPassword password = true) :
    ∃ a b c d, passwordField password = some [a, b, c, d] ∧ parsePassword [a, b, c, d] = password := by
  cases password with
  | none => exact ⟨0, 0, 0, 0, rfl, rfl⟩
  | some pw =>
    obtain ⟨hlen, hne⟩ : pw.length = 4 ∧ pw ≠ [0, 0, 0, 0] := by simpa [wfSentPassword] using h
    match pw, hlen, hne with
    | [a, b, c, d], _, hne => exact ⟨a, b, c, d, rfl, if_neg hne⟩

theorem parseMask_maskField {address length : Option Byte} (h : wfMask address length = true) :
    ∃ mask, maskField address length = some mask ∧ mask.length = maskLen address
      ∧ parseMask mask = some (address, length) := by
  match address, length, h with
  | none, none, _ => exact ⟨[], rfl, rfl, rfl⟩
  | some a, some l, _ => exact ⟨[a, l], rfl, rfl, rfl⟩

/-- In an admissible table a memory bank is decoded from its own code (R78). -/
theorem memlocDecode_memlocCode {p : Params} (hp : p.wf = true) (l : MemLoc) :
    p.memlocDecode (p.memlocCode l) = some l := by
  obtain ⟨-, hnodup⟩ : _ ∧ (memLocs.map p.memlocCode).Nodup := by
    simpa only [Params.wf, Bool.and_eq_true, decide_eq_true_iff] using hp
  have hall : ∀ m, m ∈ memLocs := by intro m; cases m <;> decide
  cases hfind : p.memlocDecode (p.memlocCode l) with
  | some m => rw [List.inj_on_of_nodup_map hnodup (hall m) (hall l) (Machine.memlocCode_of_decode hfind)]
  | none => exact absurd (List.find?_eq_none.mp hfind l (hall l)) (by simp)

/-! ## Each payload read back (R80, R133 to R135) -/

theorem exists_buildRead_parse {p : Params} {c : ReadCommand} (hp : p.wf = true) (h : c.wf = true)
    (hsent : wfSentPassword c.password = true) :
    ∃ payload, buildRead p c = .ok payload ∧ payload.length ≤ 251 ∧ parseReadCommand p payload = some c := by
  simp only [ReadCommand.wf, Bool.and_eq_true, decide_eq_true_iff] at h
  obtain ⟨⟨⟨hwords, -⟩, hmask⟩, (hfits : _ ≤ 251)⟩ := h
  obtain ⟨heven, hcount⟩ := wordCount_of_wfWords hwords (by omega)
  obtain ⟨p0, p1, p2, p3, hpw, hparsePw⟩ := parsePassword_passwordField hsent
  obtain ⟨mask, hmaskField, hmaskLen, hparseMask⟩ := parseMask_maskField hmask
  refine ⟨_, buildRead_of_accepted p heven hpw hmaskField, ?fits, ?parsed⟩
  case fits => simp [hmaskLen]; omega
  case parsed =>
    simp [parseReadCommand, hcount, memlocDecode_memlocCode hp, hparseMask, hparsePw]

theorem exists_buildWrite_parse {p : Params} {c : WriteCommand} (hp : p.wf = true) (h : c.wf = true)
    (hsent : wfSentPassword c.password = true) :
    ∃ payload, buildWrite p c = .ok payload ∧ payload.length ≤ 251 ∧ parseWriteCommand p payload = some c := by
  simp only [WriteCommand.wf, Bool.and_eq_true, decide_eq_true_iff] at h
  obtain ⟨⟨⟨⟨hwords, hdata⟩, -⟩, hmask⟩, (hfits : _ ≤ 251)⟩ := h
  obtain ⟨heven, hcount⟩ := wordCount_of_wfWords hwords (by omega)
  obtain ⟨hdataEven, hdataCount⟩ := wordCount_of_wfWords hdata (by omega)
  obtain ⟨p0, p1, p2, p3, hpw, hparsePw⟩ := parsePassword_passwordField hsent
  obtain ⟨mask, hmaskField, hmaskLen, hparseMask⟩ := parseMask_maskField hmask
  refine ⟨_, buildWrite_of_accepted p heven hdataEven hpw hmaskField, ?fits, ?parsed⟩
  case fits => simp [hmaskLen]; omega
  case parsed =>
    simp [parseWriteCommand, hcount, hdataCount, memlocDecode_memlocCode hp, hparseMask, hparsePw]

theorem exists_buildKill_parse {c : KillCommand} (h : c.wf = true) (hsent : wfSentPassword c.password = true) :
    ∃ payload, buildKill c = .ok payload ∧ payload.length ≤ 251 ∧ parseKillCommand payload = some c := by
  simp only [KillCommand.wf, Bool.and_eq_true, decide_eq_true_iff] at h
  obtain ⟨⟨⟨hwords, -⟩, hmask⟩, (hfits : _ ≤ 251)⟩ := h
  obtain ⟨heven, hcount⟩ := wordCount_of_wfWords hwords (by omega)
  obtain ⟨p0, p1, p2, p3, hpw, hparsePw⟩ := parsePassword_passwordField hsent
  obtain ⟨mask, hmaskField, hmaskLen, hparseMask⟩ := parseMask_maskField hmask
  refine ⟨_, buildKill_of_accepted heven hpw hmaskField, ?fits, ?parsed⟩
  case fits => simp [hmaskLen]; omega
  case parsed => simp [parseKillCommand, hcount, hparseMask, hparsePw]

/-! ## Command frames (R71) -/

/-- Bytes of any other length than 3 and 4 are no bare header word: they must be a frame (log 11). -/
theorem commandFrame_eq_checkFrame {bytes : List Byte} (h3 : bytes.length ≠ 3) (h4 : bytes.length ≠ 4) :
    commandFrame bytes = checkFrame bytes := by
  unfold commandFrame
  split
  · exact absurd rfl h3
  · exact absurd rfl h4
  · rfl

theorem five_le_length_of_checkFrame {bytes : List Byte} {f : Frame} (h : checkFrame bytes = .ok f) :
    5 ≤ bytes.length := by
  rw [checkFrame_eq_afterFrameTests, afterFrameTests_eq_ok_iff] at h
  obtain ⟨⟨-, hlong, -⟩, -⟩ := h
  omega

theorem commandFrame_of_checkFrame {bytes : List Byte} {f : Frame} (h : checkFrame bytes = .ok f) :
    commandFrame bytes = .ok f := by
  have hlen := five_le_length_of_checkFrame h
  rw [commandFrame_eq_checkFrame (by omega) (by omega), h]

/-- A command whose payload is built, fits and is read back is decoded from its frame. -/
theorem exists_encodeBuilt_decode {p : Params} {address : Byte} {operation : Operation}
    {built : Except Failure (List Byte)} {payload : List Byte} {i : Instr} (hbuilt : built = .ok payload)
    (hfits : payload.length ≤ 251) (hi : commandOf p address (opcode operation) payload = .ok i) :
    ∃ bytes, (encodeBuilt address operation built).toOption = some bytes ∧ decode p .cmd bytes = .ok i := by
  obtain ⟨bytes, hbytes⟩ := exists_encodeFrame address (opcode operation) hfits
  refine ⟨bytes, ?encoded, ?decoded⟩
  case encoded =>
    have hframed : encodeBuilt address operation built = .ok bytes := by rw [hbuilt]; exact hbytes
    rw [hframed]
    rfl
  case decoded =>
    have hframe := commandFrame_of_checkFrame (checkFrame_of_encodeFrame hbytes)
    show decodeCommand p bytes = .ok i
    rw [decodeCommand, hframe]
    exact hi

theorem exists_encode_decode_cmd {p : Params} {i : Instr} (hp : p.wf = true) (h : i.wf p = true)
    (hi : i.format = .cmd) : ∃ bytes, encode p i = some bytes ∧ decode p .cmd bytes = .ok i := by
  cases i with
  | cmdInventory a => exact exists_encodeBuilt_decode (payload := []) rfl (Nat.zero_le _) rfl
  | cmdGetReaderInformation a => exact exists_encodeBuilt_decode (payload := []) rfl (Nat.zero_le _) rfl
  | cmdReadData a c =>
    obtain ⟨hwf, hsent⟩ := Bool.and_eq_true_iff.mp h
    obtain ⟨payload, hbuilt, hfits, hparsed⟩ := exists_buildRead_parse hp hwf hsent
    exact exists_encodeBuilt_decode hbuilt hfits (by simp [commandOf, opcode, opReadData, opInventory, hparsed])
  | cmdWriteData a c =>
    obtain ⟨hwf, hsent⟩ := Bool.and_eq_true_iff.mp h
    obtain ⟨payload, hbuilt, hfits, hparsed⟩ := exists_buildWrite_parse hp hwf hsent
    exact exists_encodeBuilt_decode hbuilt hfits (by
      simp [commandOf, opcode, opWriteData, opReadData, opInventory, hparsed])
  | cmdKillTag a c =>
    obtain ⟨hwf, hsent⟩ := Bool.and_eq_true_iff.mp h
    obtain ⟨payload, hbuilt, hfits, hparsed⟩ := exists_buildKill_parse hwf hsent
    exact exists_encodeBuilt_decode hbuilt hfits (by
      simp [commandOf, opcode, opKillTag, opWriteData, opReadData, opInventory, hparsed])
  | _ => cases hi

/-! ## Response frames (R72, R77) -/

/-- A response frame is read back as the row of its status byte. -/
theorem decode_rspBytes (p : Params) (b : Byte) (f : RspFrame) : decode p .rsp (rspBytes b f) = statusRow p b f := rfl

theorem statusRow_statusCode {p : Params} (hp : p.wf = true) (n : StatusName) (f : RspFrame) :
    statusRow p (p.statusCode n) f = .ok (rspRow n f) := by
  rw [statusRow, statusDecode_statusCode hp]

theorem statusRow_other {p : Params} {b : Byte} (hp : p.wf = true) (hb : p.statusOther.contains b = true)
    (f : RspFrame) :
    statusRow p b f =
      if b = 0x10 then .ok (.statusOther10 f)
      else if b = 0x11 then .ok (.statusOther11 f)
      else if b = 0x12 then .ok (.statusOther12 f)
      else if b = 0xF9 then .ok (.statusOtherF9 f)
      else .error (.otherStatusWithoutRow b) := by
  rw [statusRow, (statusDecode_eq_other_iff hp).mpr ⟨rfl, List.contains_iff_mem.mp hb⟩]

theorem exists_encode_decode_rsp {p : Params} {i : Instr} (hp : p.wf = true) (h : i.wf p = true)
    (hi : i.format = .rsp) : ∃ bytes, encode p i = some bytes ∧ decode p .rsp bytes = .ok i := by
  cases i with
  | statusOk f => exact ⟨_, rfl, statusRow_statusCode hp .ok f⟩
  | statusReturnBeforeInventoryFinished f =>
    exact ⟨_, rfl, statusRow_statusCode hp .returnBeforeInventoryFinished f⟩
  | statusScanTimeOverflow f => exact ⟨_, rfl, statusRow_statusCode hp .scanTimeOverflow f⟩
  | statusMoreData f => exact ⟨_, rfl, statusRow_statusCode hp .moreData f⟩
  | statusAccessPasswordError f => exact ⟨_, rfl, statusRow_statusCode hp .accessPasswordError f⟩
  | statusKillTagError f => exact ⟨_, rfl, statusRow_statusCode hp .killTagError f⟩
  | statusKillPasswordZero f => exact ⟨_, rfl, statusRow_statusCode hp .killPasswordZero f⟩
  | statusCommandNotSupported f => exact ⟨_, rfl, statusRow_statusCode hp .commandNotSupported f⟩
  | statusPoorCommunication f => exact ⟨_, rfl, statusRow_statusCode hp .poorCommunication f⟩
  | statusNoTags f => exact ⟨_, rfl, statusRow_statusCode hp .noTags f⟩
  | statusWrongLength f => exact ⟨_, rfl, statusRow_statusCode hp .wrongLength f⟩
  | statusIllegalCommand f => exact ⟨_, rfl, statusRow_statusCode hp .illegalCommand f⟩
  | statusParameterError f => exact ⟨_, rfl, statusRow_statusCode hp .parameterError f⟩
  | statusOther10 f | statusOther11 f | statusOther12 f | statusOtherF9 f =>
    obtain ⟨-, hmember⟩ := Bool.and_eq_true_iff.mp h
    exact ⟨_, rfl, statusRow_other hp hmember f⟩
  | statusUnknown b f =>
    obtain ⟨-, hunknown⟩ := Bool.and_eq_true_iff.mp h
    refine ⟨_, rfl, ?_⟩
    rw [decode_rspBytes, statusRow, Option.isNone_iff_eq_none.mp hunknown]
  | _ => cases hi

/-! ## Host words (R74, R79) -/

open Machine

theorem decodeHost_xchgStart {w : Word} (h : hi8 w = 0x13) : decodeHost w = .ok (.xchgStart (lo8 w)) := by
  rw [decodeHost, h]; rfl

theorem decodeHost_xchgAck {w : Word} (h : hi8 w = 0x14) : decodeHost w = .ok .xchgAck := by
  rw [decodeHost, h]; rfl

/-- The fifteen selectors (R79). -/
def hostSelectors : List Byte :=
  [0x01, 0x02, 0x03, 0x10, 0x11, 0x12, 0x13, 0x14, 0x20, 0x21, 0x22, 0x23, 0x24, 0x25, 0x26]

/-- The selectors whose operation takes an operand (R79). -/
def operandSelectors : List Byte := [0x02, 0x10, 0x12, 0x13, 0x26]

theorem hi8_hostWord (opsel operand : Byte) : hi8 (hostWord opsel operand) = opsel := hi8_le16 operand opsel

theorem lo8_hostWord (opsel operand : Byte) : lo8 (hostWord opsel operand) = operand := lo8_le16 operand opsel

/-- R79's table, row by row: a word with one of the fifteen selectors is an operation, which is encoded under the same
selector, and with the same operand where it takes one. -/
theorem exists_decodeHost_of_mem {w : Word} (h : hi8 w ∈ hostSelectors) :
    ∃ i, decodeHost w = .ok i ∧ i.format = .host
      ∧ encodeHost i = some (hostWord (hi8 w) (if hi8 w ∈ operandSelectors then lo8 w else 0)) := by
  simp only [hostSelectors, List.mem_cons, List.not_mem_nil, or_false] at h
  rcases h with h | h | h | h | h | h | h | h | h | h | h | h | h | h | h
  · exact ⟨_, decodeHost_crcInit h, rfl, by rw [h]; rfl⟩
  · exact ⟨_, decodeHost_crcUpdate h, rfl, by rw [h]; rfl⟩
  · exact ⟨_, decodeHost_crcRead h, rfl, by rw [h]; rfl⟩
  · exact ⟨_, decodeHost_cfgAddr h, rfl, by rw [h]; rfl⟩
  · exact ⟨_, decodeHost_txClear h, rfl, by rw [h]; rfl⟩
  · exact ⟨_, decodeHost_txPush h, rfl, by rw [h]; rfl⟩
  · exact ⟨_, decodeHost_xchgStart h, rfl, by rw [h]; rfl⟩
  · exact ⟨_, decodeHost_xchgAck h, rfl, by rw [h]; rfl⟩
  · exact ⟨_, decodeHost_rdPhase h, rfl, by rw [h]; rfl⟩
  · exact ⟨_, decodeHost_rdResult h, rfl, by rw [h]; rfl⟩
  · exact ⟨_, decodeHost_rdStatus h, rfl, by rw [h]; rfl⟩
  · exact ⟨_, decodeHost_rdAddr h, rfl, by rw [h]; rfl⟩
  · exact ⟨_, decodeHost_rdRxlen h, rfl, by rw [h]; rfl⟩
  · exact ⟨_, decodeHost_rdTxlen h, rfl, by rw [h]; rfl⟩
  · exact ⟨_, decodeHost_rdRsp h, rfl, by rw [h]; rfl⟩

/-- No other selector is decoded (R87). -/
theorem mem_hostSelectors_of_decodeHost {w : Word} {i : Instr} (h : decodeHost w = .ok i) :
    hi8 w ∈ hostSelectors := by
  have hnat : (hi8 w).toNat ∈ hostSelectors.map BitVec.toNat := by
    unfold decodeHost at h
    split at h
    case h_16 => cases h
    all_goals
      next hsel => rw [hsel]; decide
  obtain ⟨b, hb, hbw⟩ := List.mem_map.mp hnat
  exact BitVec.eq_of_toNat_eq hbw ▸ hb

/-- Settles O52: R79's table and nothing outside it. -/
theorem hostWords : Obligations.HostWords := by
  refine fun w => ⟨⟨fun ⟨_, hi⟩ => mem_hostSelectors_of_decodeHost hi, fun hmem => ?decodes⟩, fun i hi => ?encodes⟩
  case decodes =>
    obtain ⟨i, hi, -, -⟩ := exists_decodeHost_of_mem hmem
    exact ⟨i, hi⟩
  case encodes =>
    obtain ⟨j, hj, hformat, hword⟩ := exists_decodeHost_of_mem (mem_hostSelectors_of_decodeHost hi)
    cases hi.symm.trans hj
    exact ⟨hformat, _, hword, hi8_hostWord .., lo8_hostWord ..⟩

/-- Every host operation has a word, and the word is decoded to it. -/
theorem exists_encodeHost_decodeHost {i : Instr} (hi : i.format = .host) :
    ∃ w, encodeHost i = some w ∧ decodeHost w = .ok i := by
  cases i with
  | crcInit => exact ⟨_, rfl, decodeHost_crcInit (hi8_hostWord ..)⟩
  | crcUpdate b => exact ⟨_, rfl, by rw [decodeHost_crcUpdate (hi8_hostWord ..), lo8_hostWord]⟩
  | crcRead => exact ⟨_, rfl, decodeHost_crcRead (hi8_hostWord ..)⟩
  | cfgAddr a => exact ⟨_, rfl, by rw [decodeHost_cfgAddr (hi8_hostWord ..), lo8_hostWord]⟩
  | txClear => exact ⟨_, rfl, decodeHost_txClear (hi8_hostWord ..)⟩
  | txPush b => exact ⟨_, rfl, by rw [decodeHost_txPush (hi8_hostWord ..), lo8_hostWord]⟩
  | xchgStart op => exact ⟨_, rfl, by rw [decodeHost_xchgStart (hi8_hostWord ..), lo8_hostWord]⟩
  | xchgAck => exact ⟨_, rfl, decodeHost_xchgAck (hi8_hostWord ..)⟩
  | rdPhase => exact ⟨_, rfl, decodeHost_rdPhase (hi8_hostWord ..)⟩
  | rdResult => exact ⟨_, rfl, decodeHost_rdResult (hi8_hostWord ..)⟩
  | rdStatus => exact ⟨_, rfl, decodeHost_rdStatus (hi8_hostWord ..)⟩
  | rdAddr => exact ⟨_, rfl, decodeHost_rdAddr (hi8_hostWord ..)⟩
  | rdRxlen => exact ⟨_, rfl, decodeHost_rdRxlen (hi8_hostWord ..)⟩
  | rdTxlen => exact ⟨_, rfl, decodeHost_rdTxlen (hi8_hostWord ..)⟩
  | rdRsp k => exact ⟨_, rfl, by rw [decodeHost_rdRsp (hi8_hostWord ..), lo8_hostWord]⟩
  | _ => cases hi

theorem encode_of_encodeHost (p : Params) {i : Instr} {w : Word} (hi : i.format = .host)
    (h : encodeHost i = some w) : encode p i = some [lo8 w, hi8 w] := by
  have hencode : encode p i = match encodeHost i with
      | some w => some [lo8 w, hi8 w]
      | none => none := by
    cases i with
    | crcInit | crcUpdate _ | crcRead | cfgAddr _ | txClear | txPush _ | xchgStart _ | xchgAck | rdPhase | rdResult
    | rdStatus | rdAddr | rdRxlen | rdTxlen | rdRsp _ => rfl
    | _ => cases hi
  rw [hencode, h]

theorem exists_encode_decode_host (p : Params) {i : Instr} (hi : i.format = .host) :
    ∃ bytes, encode p i = some bytes ∧ decode p .host bytes = .ok i := by
  obtain ⟨w, hw, hdecode⟩ := exists_encodeHost_decodeHost hi
  refine ⟨_, encode_of_encodeHost p hi hw, ?_⟩
  show decodeHost (le16 (lo8 w) (hi8 w)) = .ok i
  rw [le16_lo8_hi8, hdecode]

/-- Settles O51: each format by its own round trip. -/
theorem decodeOfEncode : Obligations.DecodeOfEncode := by
  intro p i hp hwf hformat
  rcases hformat with hi | hi | hi <;> rw [hi]
  · exact exists_encode_decode_cmd hp hwf hi
  · exact exists_encode_decode_rsp hp hwf hi
  · exact exists_encode_decode_host p hi

/-- Settles O53: three host words with an operand, one with ignored bits set, an unassigned selector, and two frames. -/
theorem decodedWords : Obligations.DecodedWords := by
  refine ⟨?_, ?_, ?_, ?_, ?_, ?_, ?_⟩ <;> decide +kernel

end Sys2Proof
end

section
/-! Start and end of an exchange, the channel's events, VALIDATE and RESET (45_exchange_fsm.md R174 to R180,
70_reset_and_hazards.md R240): what each does in its phases, and that it does nothing in the others. -/

namespace Sys2Proof.Machine

/-! ## XCHG.START and XCHG.ACK -/

/-- The closed set of operation codes (R76). -/
theorem isOperation_iff {op : Byte} : isOperation op = true ↔ op ∈ [0x01, 0x02, 0x03, 0x05, 0x21] :=
  List.contains_iff_mem

section
variable {op : Byte} {s : State} (h : s.phase = .idle)
include h

/-- R174, tested first (R216). -/
theorem exec_xchgStart_of_illegal (hop : isOperation op = false) :
    exec (.xchgStart op) s = .next
      { s with
        crc := 0xFFFF, txop := op, txidx := 0, resStatus := 0x00, phase := .failed
        resClass := .program, resCause := .illegalOperation, answer := some ⟨.ok, 0⟩ } := by
  refine (inIdle_idle h _).trans (if_pos ?_)
  rw [hop]
  rfl

theorem exec_xchgStart_of_operation (hop : isOperation op = true) :
    exec (.xchgStart op) s = .next
      (if 251 < s.txlen.toNat then
        { s with
          crc := 0xFFFF, txop := op, txidx := 0, resStatus := 0x00, phase := .failed
          resClass := .program, resCause := .payloadTooLong, answer := some ⟨.ok, 0⟩ }
      else
        { s with
          crc := 0xFFFF, txop := op, txidx := 0, resStatus := 0x00, phase := .sending
          resClass := .none, resCause := .none, answer := some ⟨.ok, 0⟩ }) := by
  rw [apply_ite Host.Outcome.next]
  refine (inIdle_idle h _).trans (if_neg ?_)
  rw [hop]
  exact Bool.false_ne_true

end

/-- R174, R188. -/
theorem exec_xchgStart_refused {op : Byte} {s : State} (h : s.phase ≠ .idle) :
    exec (.xchgStart op) s = .next { s with answer := some ⟨.refused, 0⟩ } :=
  inIdle_refused h _

/-- R180, R220. -/
theorem exec_xchgAck_done {s : State} (h : s.phase = .success ∨ s.phase = .failed) :
    exec .xchgAck s = .next (respond .ok 0 (acknowledge s)) :=
  inDone_done h _

/-- R180, R188. -/
theorem exec_xchgAck_refused {s : State} (h : s.phase ≠ .success) (h' : s.phase ≠ .failed) :
    exec .xchgAck s = .next { s with answer := some ⟨.refused, 0⟩ } :=
  inDone_refused h h' _

/-- Settles O22: the code is tested before the length, and both only in Idle. -/
theorem xchgStart : Obligations.XchgStart := by
  refine ⟨fun _ => decodeHost_xchgStart, fun op s => ⟨fun hp hop => ?illegal, fun hp hop hlong => ?tooLong,
    fun hp hop hfits => ?started, exec_xchgStart_refused⟩⟩
  case illegal => exact exec_xchgStart_of_illegal hp (Bool.eq_false_iff.mpr (mt isOperation_iff.mp hop))
  case tooLong => rw [exec_xchgStart_of_operation hp (isOperation_iff.mpr hop), if_pos hlong]
  case started => rw [exec_xchgStart_of_operation hp (isOperation_iff.mpr hop), if_neg (Nat.not_lt.mpr hfits)]

/-- Settles O23: `XCHG.ACK` is the way back of R220 and its answer. -/
theorem xchgAck : Obligations.XchgAck :=
  ⟨fun _ => decodeHost_xchgAck, fun _ => ⟨exec_xchgAck_done, exec_xchgAck_refused⟩⟩

/-! ## CH.TXBYTE -/

/-- R175 with the byte that leaves. -/
theorem exec_chTxbyte_of_byte {s : State} {b : Byte} (hp : s.phase = .sending)
    (hi : s.txidx.toNat ≤ s.txlen.toNat + 4) (hb : commandByte s = .ok b) :
    exec .chTxbyte s = .next
      { s with
        txStream := s.txStream ++ [b]
        txidx := BitVec.ofNat 9 (s.txidx.toNat + 1)
        crc := if s.txidx.toNat < s.txlen.toNat + 3 then crcByte s.crc b
          else if s.txidx.toNat = s.txlen.toNat + 4 then 0xFFFF else s.crc
        phase := if s.txidx.toNat = s.txlen.toNat + 4 then .awaitingLength else .sending
        rxcnt := if s.txidx.toNat = s.txlen.toNat + 4 then 0 else s.rxcnt } := by
  show execChTxbyte s = _
  rw [execChTxbyte, if_pos hp, hb, withValue_ok]
  by_cases hlast : s.txidx.toNat = s.txlen.toNat + 4
  · simp [hlast, emit, crcSeed]
  · by_cases hhead : s.txidx.toNat < s.txlen.toNat + 3
    · simp [hlast, hhead, show s.txidx.toNat + 2 ≤ s.txlen.toNat + 4 by omega, emit, hp]
    · simp [hlast, hhead, show ¬ s.txidx.toNat + 2 ≤ s.txlen.toNat + 4 by omega, emit, hp]

theorem exec_chTxbyte_ignored {s : State} (h : s.phase ≠ .sending) : exec .chTxbyte s = .next s := if_neg h

/-- In Sending every index up to the second trailer byte has its byte (R175). -/
theorem exists_commandByte {s : State} (hl : s.txlen.toNat ≤ 251) (hi : s.txidx.toNat ≤ s.txlen.toNat + 4)
    (hw : ∀ i, i < s.txlen.toNat → (s.txbuf.read i).isSome) :
    ∃ b, commandByte s = .ok b
      ∧ (s.txidx.toNat = 0 → b.toNat = s.txlen.toNat + 4)
      ∧ (s.txidx.toNat = 1 → b = s.addr)
      ∧ (s.txidx.toNat = 2 → b = s.txop)
      ∧ (3 ≤ s.txidx.toNat → s.txidx.toNat < s.txlen.toNat + 3 → s.txbuf.read (s.txidx.toNat - 3) = some b)
      ∧ (s.txidx.toNat = s.txlen.toNat + 3 → b = lo8 s.crc)
      ∧ (s.txidx.toNat = s.txlen.toNat + 4 → b = hi8 s.crc) := by
  rcases commandByte_spec s hi with ⟨h, e⟩ | ⟨h, e⟩ | ⟨h, e⟩ | ⟨h, h', e⟩ | ⟨h, e⟩ | ⟨h, e⟩
  case inr.inr.inr.inl =>
    obtain ⟨b, hb⟩ := Option.isSome_iff_exists.mp (hw (s.txidx.toNat - 3) (by omega))
    rw [memRead_of_written .txbuf _ s b (show _ < 251 by omega) hb] at e
    exact ⟨b, e, by omega, by omega, by omega, fun _ _ => hb, by omega, by omega⟩
  case inl =>
    have hlen : (BitVec.ofNat 8 (s.txlen.toNat + 4)).toNat = s.txlen.toNat + 4 :=
      Nat.mod_eq_of_lt (show s.txlen.toNat + 4 < 256 by omega)
    exact ⟨_, e, fun _ => hlen, by omega, by omega, by omega, by omega, by omega⟩
  all_goals exact ⟨_, e, by simp [h]⟩

/-- Settles O24: the byte of R175 at each index, and the one state change. -/
theorem chTxbyte : Obligations.ChTxbyte := by
  refine fun s => ⟨fun hp hl hi hw => ?_, exec_chTxbyte_ignored⟩
  obtain ⟨b, hb, h0, h1, h2, h3, hlow, hhigh⟩ := exists_commandByte hl hi hw
  exact ⟨b, h0, h1, h2, h3, hlow, hhigh, exec_chTxbyte_of_byte hp hi hb⟩

/-! ## CH.RXBYTE -/

/-- R176. -/
theorem exec_chRxbyteLength_awaiting (b : Byte) {s : State} (h : s.phase = .awaitingLength) :
    exec (.chRxbyteLength b) s = .next
      { s with
        rxbuf := s.rxbuf.write 0 b, rxlen := b, rxcnt := 1
        crc := if 2 ≤ b.toNat then crcByte s.crc b else s.crc
        phase := if b = 0 then .validating else .awaitingBody } := by
  show execChRxbyteLength b s = _
  rw [execChRxbyteLength, if_pos h, memWrite_rxbuf _ _ _ (by decide)]
  rfl

/-- R177. -/
theorem exec_chRxbyteBody_awaiting (b : Byte) {s : State} (h : s.phase = .awaitingBody)
    (hi : s.rxcnt.toNat < 256) :
    exec (.chRxbyteBody b) s = .next
      { s with
        rxbuf := s.rxbuf.write s.rxcnt.toNat b, rxcnt := BitVec.ofNat 9 (s.rxcnt.toNat + 1)
        crc := if s.rxcnt.toNat + 2 ≤ s.rxlen.toNat then crcByte s.crc b else s.crc
        phase := if s.rxcnt.toNat = s.rxlen.toNat then .validating else .awaitingBody } := by
  show execChRxbyteBody b s = _
  rw [execChRxbyteBody, if_pos h]
  dsimp only
  rw [memWrite_rxbuf _ _ _ hi, ← h]
  rfl

/-- R53: the byte stays in the channel. -/
theorem exec_chRxbyteLength_left (b : Byte) {s : State} (h : s.phase ≠ .awaitingLength) :
    exec (.chRxbyteLength b) s = .next { s with rxStream := b :: s.rxStream } :=
  if_neg h

/-- R53: the byte stays in the channel. -/
theorem exec_chRxbyteBody_left (b : Byte) {s : State} (h : s.phase ≠ .awaitingBody) :
    exec (.chRxbyteBody b) s = .next { s with rxStream := b :: s.rxStream } :=
  if_neg h

/-- Settles O25: one write to the buffer, and the length it announces. -/
theorem chRxbyteLength : Obligations.ChRxbyteLength :=
  fun b _ => ⟨fun h => ⟨_, exec_chRxbyteLength_awaiting b h,
    Memory.read_write_same _ _ _,
    fun _ hi => Memory.read_write_other _ _ hi⟩, exec_chRxbyteLength_left b⟩

/-- Settles O26: one write to the buffer, at the index being filled. -/
theorem chRxbyteBody : Obligations.ChRxbyteBody :=
  fun b s => ⟨fun h hi => ⟨_, exec_chRxbyteBody_awaiting b h (Nat.lt_of_le_of_lt hi s.rxlen.isLt),
    Memory.read_write_same _ _ _,
    fun _ hi => Memory.read_write_other _ _ hi⟩, exec_chRxbyteBody_left b⟩

/-! ## CH.IOERR -/

/-- R178, R218. -/
theorem exec_chIoerr_raised {s : State} (h : s.phase = .sending ∨ s.phase = .awaitingLength ∨ s.phase = .awaitingBody) :
    exec .chIoerr s = .next (raiseFail .io .channelError s) :=
  if_pos h

/-- R178, R215. -/
theorem exec_chIoerr_dropped {s : State} (h : s.phase ≠ .sending) (h' : s.phase ≠ .awaitingLength)
    (h'' : s.phase ≠ .awaitingBody) : exec .chIoerr s = .next s :=
  if_neg (not_or.mpr ⟨h, not_or.mpr ⟨h', h''⟩⟩)

/-- Settles O27: raised in three phases, dropped in the others. -/
theorem chIoerr : Obligations.ChIoerr := fun _ => ⟨exec_chIoerr_raised, exec_chIoerr_dropped⟩

/-! ## VALIDATE -/

theorem exec_validate_ignored {s : State} (h : s.phase ≠ .validating) : exec .validate s = .next s := if_neg h

/-- R179, step 1. -/
theorem exec_validate_of_short {s : State} (hp : s.phase = .validating) (h : s.rxlen.toNat < 5) :
    exec .validate s = .next (raiseFail .program .badLength s) :=
  (if_pos hp).trans (if_pos h)

/-- R179, steps 2 to 4, with the bytes they read. -/
theorem exec_validate_of_read {s : State} {lo hi b : Byte} (hp : s.phase = .validating) (h : 5 ≤ s.rxlen.toNat)
    (hlo : s.rxbuf.read (s.rxlen.toNat - 1) = some lo) (hhi : s.rxbuf.read s.rxlen.toNat = some hi)
    (hb : s.rxbuf.read 3 = some b) :
    exec .validate s = .next
      (if s.crc ≠ le16 lo hi then raiseFail .program .badCrc s
      else match statusDecode s.params b with
        | none => raiseFail .program .unknownStatus { s with resStatus := b }
        | some st => judgeStatus st { s with resStatus := b }) := by
  have hbound : s.rxlen.toNat < 256 := s.rxlen.isLt
  show execValidate s = _
  rw [execValidate, if_pos hp]
  dsimp only
  rw [if_neg (show ¬ s.rxlen.toNat < minRspLength from Nat.not_lt.mpr h),
    memRead_of_written .rxbuf _ s lo (show _ < 256 by omega) hlo, withValue_ok,
    memRead_of_written .rxbuf _ s hi hbound hhi, withValue_ok,
    memRead_of_written .rxbuf 3 s b (by decide) hb, withValue_ok]
  split
  next => rfl
  next => cases statusDecode s.params b <;> rfl

/-- R162, R164: the statuses that end an exchange in Success. -/
theorem judgeStatus_of_accepted {st : Status} {s : State}
    (h : classify st = .success ∨ (st = .named .noTags ∧ s.txop = 0x01)) :
    judgeStatus st s = { s with phase := .success } := by
  unfold judgeStatus
  split
  next => rfl
  next hfailed => exact if_pos (h.resolve_left hfailed)

/-- R162, R164: every other status fails with its class. -/
theorem judgeStatus_of_rejected {st : Status} {s : State} (h : classify st ≠ .success)
    (h' : ¬(st = .named .noTags ∧ s.txop = 0x01)) :
    judgeStatus st s = raiseFail (classify st).resClass .status s :=
  (if_neg h).trans (if_neg h')

/-- Settles O28: the steps in their order; the class of a rejected status is that of R162. -/
theorem validate : Obligations.Validate := by
  refine fun s => ⟨exec_validate_of_short, fun lo hi b hp h hlo hhi hb => ?_, exec_validate_ignored⟩
  rw [exec_validate_of_read hp h hlo hhi hb]
  refine ⟨fun hcrc => ?badCrc, fun hcrc hst => ?unknown,
    fun st hcrc hst => ⟨fun hok => ?accepted, fun hcls hno => ?rejected⟩⟩
  case badCrc => rw [if_pos hcrc]; rfl
  case unknown => rw [if_neg (not_not_intro hcrc), hst]; rfl
  case accepted =>
    rw [if_neg (not_not_intro hcrc), hst]
    exact congrArg _ (judgeStatus_of_accepted hok)
  case rejected =>
    rw [if_neg (not_not_intro hcrc), hst]
    dsimp only
    rw [judgeStatus_of_rejected (s := { s with resStatus := b }) hcls hno]
    cases classify st <;> rfl

/-! ## VALIDATE against the functions (R179) -/

/-- The bytes of a span at the indexes that have been written. -/
theorem Memory.getElem?_span_of_isSome {m : Memory} {n i : Nat} (hi : i < n) (h : (m.read i).isSome) :
    (m.span n)[i]? = m.read i := by
  obtain ⟨b, hb⟩ := Option.isSome_iff_exists.mp h
  rw [List.getElem?_eq_getElem (by simpa using hi), Memory.getElem_span, hb]
  rfl

theorem Memory.take_span (m : Memory) (n k : Nat) : (m.span n).take k = m.span (min k n) := by
  rw [Memory.span, Memory.span, ← List.map_take, List.take_range]

/-- In the invariant VALIDATE judges the received frame as the functions do. -/
theorem Inv.exec_validate {s : State} (hinv : Inv s) (hp : s.phase = .validating) :
    exec .validate s = .next (judgedBy (s.rxbuf.span (s.rxlen.toNat + 1)) s) := by
  obtain ⟨hcount, hreceiving⟩ := hinv.validating hp
  refine execValidate_spec _ s hp (Memory.length_span _ _) (fun i hi => ?bytes) ?lengthByte ?running
  case bytes =>
    rw [Memory.length_span] at hi
    exact (Memory.getElem?_span_of_isSome hi (hreceiving.written i (hcount ▸ hi))).symm
  case lengthByte => rw [Memory.getD_span _ _ _ (Nat.succ_pos _), hreceiving.lengthByte]; rfl
  case running =>
    rw [hreceiving.running, Memory.length_span, Memory.take_span, hcount]
    congr 2
    omega

theorem judgeStatus_phase_eq_success_iff {st : Status} {s : State} :
    (judgeStatus st s).phase = .success ↔ successful st = true ∨ (st = .named .noTags ∧ s.txop = 0x01) := by
  rw [successful_iff]
  by_cases h : classify st = .success ∨ (st = .named .noTags ∧ s.txop = 0x01)
  · rw [judgeStatus_of_accepted h]
    exact iff_of_true rfl h
  · obtain ⟨hcls, hno⟩ := not_or.mp h
    rw [judgeStatus_of_rejected hcls hno]
    exact iff_of_false nofun h

/-- Settles O29: the judgement of the functions, split by what `decode_response` answers. -/
theorem validateIsDecodeResponse : Obligations.ValidateIsDecodeResponse := by
  intro s hinv hp
  have hexec := hinv.exec_validate hp
  refine ⟨hexec, fun e he => ?failed, fun r hr => ?judged⟩
  case failed =>
    rw [hexec, judgedBy, he]
    dsimp only
    split
    · exact ⟨_, rfl⟩
    · exact ⟨s.resStatus, rfl⟩
  case judged =>
    refine ⟨_, hexec, ?_⟩
    rw [judgedBy, hr]
    exact judgeStatus_phase_eq_success_iff

/-! ## RESET and the outputs -/

/-- The outputs are the phases that R38, R175 and R176 give them. -/
theorem outputs_iff (s : State) :
    (busy s = true ↔ s.phase ≠ .idle) ∧ (done s = true ↔ s.phase = .success ∨ s.phase = .failed)
      ∧ (txValid s = true ↔ s.phase = .sending)
      ∧ (rxReady s = true ↔ s.phase = .awaitingLength ∨ s.phase = .awaitingBody) := by
  simp [busy, done, txValid, rxReady]

theorem exec_reset (s : State) : exec .reset s = .next (resetBlock s) := rfl

theorem step_of_rst {s : State} (h : (presentMoment s).rst = true) : ∃ s', step s = exec .reset s' := by
  refine ⟨keepOffer (presentMoment s) (enterMoment s), ?_⟩
  have haction : nextAction s = .run .reset (keepOffer (presentMoment s) (enterMoment s)) := if_pos h
  rw [step, haction]

/-- Settles O30: the outputs are functions of the phase, and RESET leaves the block idle. -/
theorem reset : Obligations.Reset := by
  refine ⟨outputs_iff, fun s => ⟨[], [], exec_reset s⟩, fun s t h => ?outputs, fun _ => step_of_rst, ?table,
    rfl, rfl, rfl, rfl⟩
  case outputs => cases h; exact ⟨rfl, rfl, rfl, rfl⟩
  case table => exact ⟨rfl, rfl, rfl, rfl, rfl, rfl, rfl, rfl, rfl, rfl, rfl⟩

end Sys2Proof.Machine
end

section
/-! The invariant (10_state.md R40): it holds after reset, and every instruction and every step answers a next state in
it. Each single operation is shown to be safe once; sequences of operations are safe because their parts are. -/

namespace Sys2Proof.Machine

/-! ## The parts of the invariant -/

/-- The clauses of the invariant that speak of the buffers, whatever the phase (R26, R40 (a)). -/
structure Buffers (s : State) : Prop where
  txlenBound : s.txlen.toNat ≤ 252
  staged : ∀ i, i < s.txlen.toNat → i < maxPayload → (s.txbuf.read i).isSome
  txbufForm : s.txbuf.wf = true
  rxbufForm : s.rxbuf.wf = true

theorem Buffers.of_eq {s t : State} (h : Buffers s) (hlen : t.txlen = s.txlen := by rfl)
    (htx : t.txbuf = s.txbuf := by rfl) (hrx : t.rxbuf = s.rxbuf := by rfl) : Buffers t :=
  ⟨hlen ▸ h.txlenBound, hlen ▸ htx ▸ h.staged, htx ▸ h.txbufForm, hrx ▸ h.rxbufForm⟩

theorem Buffers.of_write_rxbuf {s t : State} (h : Buffers s) (i : Nat) (b : Byte)
    (hlen : t.txlen = s.txlen := by rfl) (htx : t.txbuf = s.txbuf := by rfl)
    (hrx : t.rxbuf = s.rxbuf.write i b := by rfl) : Buffers t :=
  ⟨hlen ▸ h.txlenBound, hlen ▸ htx ▸ h.staged, htx ▸ h.txbufForm, hrx ▸ Memory.wf_write _ _ _ h.rxbufForm⟩

/-- No outcome is recorded (R31 to R33). -/
structure NoResult (s : State) : Prop where
  resClass : s.resClass = .none
  resCause : s.resCause = .none
  resStatus : s.resStatus = 0

theorem Receiving.of_eq {s t : State} (h : Receiving s) (hbuf : t.rxbuf = s.rxbuf := by rfl)
    (hlen : t.rxlen = s.rxlen := by rfl) (hcnt : t.rxcnt = s.rxcnt := by rfl) (hcrc : t.crc = s.crc := by rfl) :
    Receiving t :=
  ⟨hcnt ▸ hbuf ▸ h.written, hlen ▸ hbuf ▸ h.lengthByte, hcrc ▸ hbuf ▸ hcnt ▸ hlen ▸ h.running⟩

theorem Inv.buffers {s : State} (h : Inv s) : Buffers s := ⟨h.txlenBound, h.staged, h.txbufForm, h.rxbufForm⟩

theorem Inv.noResult {s : State} (h : Inv s) (hs : s.phase ≠ .success) (hf : s.phase ≠ .failed) : NoResult s := by
  have hcls : s.resClass = .none := by_contra fun hne => hf (h.failed.mpr hne)
  have hcause := h.noCause hcls
  exact ⟨hcls, hcause, h.noStatus hs (by simp [hcause]) (by simp [hcause])⟩

theorem fst_ne_none_of_mem_recordedFailures : ∀ f ∈ recordedFailures, f.1 ≠ .none := by decide

section
variable {t : State} (hbuf : Buffers t)
include hbuf

/-- Before an exchange has ended: the clause of the phase, and no outcome. -/
theorem inv_of_noResult (hres : NoResult t) (hs : t.phase ≠ .success) (hf : t.phase ≠ .failed)
    (hsending : t.phase = .sending → t.txlen.toNat ≤ maxPayload ∧ isOperation t.txop = true ∧
      t.txidx.toNat ≤ t.txlen.toNat + 4 ∧ t.crc = Sys2Proof.crc ((commandHead t).take t.txidx.toNat))
    (hlength : t.phase = .awaitingLength → t.rxcnt = 0 ∧ t.crc = crcSeed)
    (hbody : t.phase = .awaitingBody → 1 ≤ t.rxcnt.toNat ∧ t.rxcnt.toNat ≤ t.rxlen.toNat ∧ Receiving t)
    (hvalidating : t.phase = .validating → t.rxcnt.toNat = t.rxlen.toNat + 1 ∧ Receiving t) : Inv t where
  txlenBound := hbuf.txlenBound
  staged := hbuf.staged
  sending := hsending
  awaitingLength := hlength
  awaitingBody := hbody
  validating := hvalidating
  success h := absurd h hs
  failed := iff_of_false hf (not_not_intro hres.resClass)
  recorded h := absurd hres.resClass h
  noCause _ := hres.resCause
  noStatus _ _ _ := hres.resStatus
  txbufForm := hbuf.txbufForm
  rxbufForm := hbuf.rxbufForm

theorem inv_of_idle (hp : t.phase = .idle) (hres : NoResult t) : Inv t := by
  refine inv_of_noResult hbuf hres ?_ ?_ ?_ ?_ ?_ ?_ <;> simp [hp]

theorem inv_of_failed (hp : t.phase = .failed) (hrec : (t.resClass, t.resCause) ∈ recordedFailures)
    (hst : t.resCause ≠ .status → t.resCause ≠ .unknownStatus → t.resStatus = 0) : Inv t where
  txlenBound := hbuf.txlenBound
  staged := hbuf.staged
  sending h := by simp [hp] at h
  awaitingLength h := by simp [hp] at h
  awaitingBody h := by simp [hp] at h
  validating h := by simp [hp] at h
  success h := by simp [hp] at h
  failed := iff_of_true hp (fst_ne_none_of_mem_recordedFailures _ hrec)
  recorded _ := hrec
  noCause h := absurd h (fst_ne_none_of_mem_recordedFailures _ hrec)
  noStatus _ := hst
  txbufForm := hbuf.txbufForm
  rxbufForm := hbuf.rxbufForm

theorem inv_of_success (hp : t.phase = .success) (hcls : t.resClass = .none) (hcause : t.resCause = .none)
    (hval : Validated t) : Inv t where
  txlenBound := hbuf.txlenBound
  staged := hbuf.staged
  sending h := by simp [hp] at h
  awaitingLength h := by simp [hp] at h
  awaitingBody h := by simp [hp] at h
  validating h := by simp [hp] at h
  success _ := hval
  failed := iff_of_false (by simp [hp]) (not_not_intro hcls)
  recorded h := absurd hcls h
  noCause _ := hcause
  noStatus h := absurd hp h
  txbufForm := hbuf.txbufForm
  rxbufForm := hbuf.rxbufForm

end

/-- The invariant speaks of the block's registers and buffers only, not of what stands around it. -/
theorem Inv.environment {s : State} (h : Inv s) (tx rx : List Byte) (a : Option Answer) (c : Bool)
    (ms : List Moment) (k : Option Task) (r : Option HostResult) :
    Inv { s with txStream := tx, rxStream := rx, answer := a, chanReady := c, moments := ms, task := k, result := r } where
  txlenBound := h.txlenBound
  staged := h.staged
  sending := h.sending
  awaitingLength := h.awaitingLength
  awaitingBody hp :=
    have ⟨hpos, hle, hrec⟩ := h.awaitingBody hp
    ⟨hpos, hle, hrec.of_eq⟩
  validating hp :=
    have ⟨hcnt, hrec⟩ := h.validating hp
    ⟨hcnt, hrec.of_eq⟩
  success hp :=
    have hv := h.success hp
    ⟨hv.longEnough, hv.complete, hv.receiving.of_eq, hv.trailer, hv.status, hv.accepted⟩
  failed := h.failed
  recorded := h.recorded
  noCause := h.noCause
  noStatus := h.noStatus
  txbufForm := h.txbufForm
  rxbufForm := h.rxbufForm

/-! ## Safe results -/

/-- A state of the invariant with the arguments `p`. -/
structure Good (p : Params) (s : State) : Prop where
  inv : Inv s
  params : s.params = p

/-- A result that goes on, in a good state. -/
def Safe (p : Params) (r : Result) : Prop := ∃ t, r = .next t ∧ Good p t

section
variable {p : Params} {s : State}

theorem Good.of_inv {t : State} (h : Good p s) (hinv : Inv t) (hparams : t.params = s.params := by rfl) : Good p t :=
  ⟨hinv, hparams.trans h.params⟩

theorem safe_next (h : Good p s) : Safe p (.next s) := ⟨s, rfl, h⟩

theorem Safe.andThen {r : Result} {k : State → Result} (h : Safe p r) (hk : ∀ t, Good p t → Safe p (k t)) :
    Safe p (andThen r k) := by
  obtain ⟨t, rfl, ht⟩ := h
  exact hk t ht

theorem Good.environment (h : Good p s) (tx rx : List Byte) (a : Option Answer) (c : Bool) (ms : List Moment)
    (k : Option Task) (r : Option HostResult) :
    Good p { s with txStream := tx, rxStream := rx, answer := a, chanReady := c, moments := ms, task := k, result := r } :=
  h.of_inv (h.inv.environment tx rx a c ms k r)

theorem Good.respond (h : Good p s) (rcode : RCode) (data : Word) : Good p (respond rcode data s) :=
  h.environment _ _ _ _ _ _ _

theorem safe_inPhase {legal : Phase → Bool} {k : Result} (h : Good p s) (hk : legal s.phase = true → Safe p k) :
    Safe p (inPhase legal s k) := by
  rcases inPhase_cases legal s k with ⟨hl, heq⟩ | ⟨-, heq⟩ <;> rw [heq]
  · exact hk hl
  · exact safe_next (h.respond .refused 0)

theorem safe_inIdle {k : Result} (h : Good p s) (hk : s.phase = .idle → Safe p k) : Safe p (inIdle s k) :=
  safe_inPhase h fun hl => hk (by simpa using hl)

theorem safe_inDone {k : Result} (h : Good p s) (hk : s.phase = .success ∨ s.phase = .failed → Safe p k) :
    Safe p (inDone s k) :=
  safe_inPhase h fun hl => hk (by simpa using hl)

theorem safe_inSuccess {k : Result} (h : Good p s) (hk : s.phase = .success → Safe p k) : Safe p (inSuccess s k) :=
  safe_inPhase h fun hl => hk (by simpa using hl)


/-! ## The host operations in Idle -/

/-- In Idle only the clauses of the buffers are at stake. -/
theorem Good.of_idle {t : State} (h : Good p s) (hp : s.phase = .idle) (hbuf : Buffers t)
    (hphase : t.phase = s.phase := by rfl) (hcls : t.resClass = s.resClass := by rfl)
    (hcause : t.resCause = s.resCause := by rfl) (hst : t.resStatus = s.resStatus := by rfl)
    (hparams : t.params = s.params := by rfl) : Good p t := by
  obtain ⟨hcls₀, hcause₀, hst₀⟩ := h.inv.noResult (by simp [hp]) (by simp [hp])
  exact h.of_inv (inv_of_idle hbuf (hphase.trans hp) ⟨hcls.trans hcls₀, hcause.trans hcause₀, hst.trans hst₀⟩) hparams

variable (h : Good p s)
include h

theorem safe_crcInit : Safe p (execCrcInit s) :=
  safe_inIdle h fun hp => safe_next (h.of_idle hp h.inv.buffers.of_eq)

theorem safe_crcUpdate (b : Byte) : Safe p (execCrcUpdate b s) :=
  safe_inIdle h fun hp => safe_next (h.of_idle hp h.inv.buffers.of_eq)

theorem safe_crcRead : Safe p (execCrcRead s) := safe_inIdle h fun _ => safe_next (h.respond _ _)

theorem safe_cfgAddr (a : Byte) : Safe p (execCfgAddr a s) :=
  safe_inIdle h fun hp => safe_next (h.of_idle hp h.inv.buffers.of_eq)

theorem safe_txClear : Safe p (execTxClear s) := by
  refine safe_inIdle h fun hp => safe_next (h.of_idle hp ?_)
  exact ⟨by simp, by simp, h.inv.txbufForm, h.inv.rxbufForm⟩

/-- A push writes the byte at the index that it stages (R173). -/
theorem safe_txPush (b : Byte) : Safe p (execTxPush b s) := by
  refine safe_inIdle h fun hp => ?_
  split
  next hroom =>
    simp only [maxPayload] at hroom
    rw [memWrite_txbuf _ _ _ hroom]
    refine safe_next (h.of_idle hp ⟨?bound, fun i hi hmax => ?staged, Memory.wf_write _ _ _ h.inv.txbufForm,
      h.inv.rxbufForm⟩)
    case bound => simp; omega
    case staged =>
      have hi' : i < s.txlen.toNat + 1 := Nat.lt_of_lt_of_le hi (Nat.mod_le _ _)
      rw [respond_txbuf, Memory.read_write]
      split
      · rfl
      · exact h.inv.staged i (by omega) hmax
  next hfull =>
    simp only [maxPayload] at hfull
    refine safe_next (h.of_idle hp ⟨Nat.le_refl _, fun i _ hmax => ?_, h.inv.txbufForm, h.inv.rxbufForm⟩)
    exact h.inv.staged i (Nat.lt_of_lt_of_le hmax (Nat.not_lt.mp hfull)) hmax

theorem safe_xchgStart (op : Byte) : Safe p (exec (.xchgStart op) s) := by
  by_cases hp : s.phase = .idle
  · cases hop : isOperation op with
    | false =>
      rw [exec_xchgStart_of_illegal hp hop]
      exact safe_next (h.of_inv (inv_of_failed h.inv.buffers.of_eq rfl (by simp [recordedFailures]) fun _ _ => rfl))
    | true =>
      rw [exec_xchgStart_of_operation hp hop]
      split
      next =>
        exact safe_next (h.of_inv (inv_of_failed h.inv.buffers.of_eq rfl (by simp [recordedFailures]) fun _ _ => rfl))
      next hfits =>
        exact safe_next (h.of_inv (inv_of_noResult h.inv.buffers.of_eq ⟨rfl, rfl, rfl⟩ nofun nofun
          (fun _ => ⟨Nat.not_lt.mp hfits, hop, Nat.zero_le _, rfl⟩) nofun nofun nofun))
  · rw [exec_xchgStart_refused hp]
    exact safe_next (h.respond _ _)

/-! ## The end of an exchange and the reads -/

theorem safe_xchgAck : Safe p (execXchgAck s) := by
  refine safe_inDone h fun _ => safe_next (h.of_inv (inv_of_idle ?_ rfl ⟨rfl, rfl, rfl⟩))
  exact ⟨by simp, by simp, h.inv.txbufForm, h.inv.rxbufForm⟩

theorem safe_rdPhase : Safe p (execRdPhase s) := safe_next (h.respond _ _)

theorem safe_rdResult : Safe p (execRdResult s) := safe_next (h.respond _ _)

theorem safe_rdStatus : Safe p (execRdStatus s) := safe_inDone h fun _ => safe_next (h.respond _ _)

theorem safe_rdAddr : Safe p (execRdAddr s) := safe_next (h.respond _ _)

theorem safe_rdRxlen : Safe p (execRdRxlen s) := safe_inSuccess h fun _ => safe_next (h.respond _ _)

theorem safe_rdTxlen : Safe p (execRdTxlen s) := safe_next (h.respond _ _)

/-- In Success every byte that `RD.RSP` reads has been received (R187, R223). -/
theorem safe_rdRsp (i : Byte) : Safe p (execRdRsp i s) := by
  refine safe_inSuccess h fun hp => ?_
  split
  · exact safe_next (h.respond _ _)
  next hi =>
    have hwritten := h.inv.isSome_read_of_success hp (i := i.toNat) (by omega)
    obtain ⟨b, hb⟩ := Option.isSome_iff_exists.mp hwritten
    rw [memRead_of_written .rxbuf _ s b i.isLt hb]
    exact safe_next (h.respond _ _)

/-! ## The events -/

theorem safe_reset : Safe p (execReset s) :=
  safe_next (h.of_inv (inv_of_idle ⟨by simp, by simp, rfl, rfl⟩ rfl ⟨rfl, rfl, rfl⟩))

theorem safe_chIoerr : Safe p (execChIoerr s) := by
  unfold execChIoerr
  split
  next hp =>
    have hres : NoResult s := h.inv.noResult (by rcases hp with hp | hp | hp <;> simp [hp])
      (by rcases hp with hp | hp | hp <;> simp [hp])
    exact safe_next (h.of_inv (inv_of_failed h.inv.buffers.of_eq rfl (by simp [recordedFailures])
      fun _ _ => hres.resStatus))
  next => exact safe_next h

/-- A sent byte moves the index on, and the CRC with it; the last one leads to the wait for the response (R175). -/
theorem safe_chTxbyte : Safe p (execChTxbyte s) := by
  by_cases hp : s.phase = .sending
  · obtain ⟨hl, hop, hi, hcrc⟩ := h.inv.sending hp
    have hw : ∀ i, i < s.txlen.toNat → (s.txbuf.read i).isSome :=
      fun i hi => h.inv.staged i hi (Nat.lt_of_lt_of_le hi hl)
    obtain ⟨hcls, hcause, hst⟩ := h.inv.noResult (by simp [hp]) (by simp [hp])
    obtain ⟨b, -, hexec⟩ := execChTxbyte_spec s hp hi hl hw hcrc
    rw [hexec]
    by_cases hlast : s.txidx.toNat = s.txlen.toNat + 4
    · simp only [if_pos hlast]
      exact safe_next (h.of_inv (inv_of_noResult h.inv.buffers.of_eq ⟨hcls, hcause, hst⟩ nofun nofun nofun
        (fun _ => ⟨rfl, rfl⟩) nofun nofun))
    · simp only [if_neg hlast]
      have hbound : s.txlen.toNat ≤ 251 := hl
      have hindex : (BitVec.ofNat 9 (s.txidx.toNat + 1)).toNat = s.txidx.toNat + 1 :=
        Nat.mod_eq_of_lt (show s.txidx.toNat + 1 < 512 by omega)
      refine safe_next (h.of_inv (inv_of_noResult h.inv.buffers.of_eq ⟨hcls, hcause, hst⟩ nofun nofun
        (fun _ => ⟨hl, hop, ?_, ?_⟩) nofun nofun nofun))
      · show (BitVec.ofNat 9 (s.txidx.toNat + 1)).toNat ≤ s.txlen.toNat + 4
        omega
      · show _ = Sys2Proof.crc ((commandHead s).take (BitVec.ofNat 9 (s.txidx.toNat + 1)).toNat)
        rw [hindex]
  · exact (show execChTxbyte s = .next s from if_neg hp) ▸ safe_next h

omit h in
/-- The length byte of a response (R176), with the CRC seeded before it. -/
theorem receiving_of_first {t : State} {m : Memory} {b : Byte} (hbuf : t.rxbuf = m.write 0 b) (hlen : t.rxlen = b)
    (hcnt : t.rxcnt = 1) (hcrc : t.crc = if 2 ≤ b.toNat then crcByte crcSeed b else crcSeed) : Receiving t where
  written i hi := by
    have hzero : i = 0 := by simpa [hcnt] using hi
    rw [hbuf, hzero, Memory.read_write_same]
    rfl
  lengthByte := by rw [hbuf, hlen, Memory.read_write_same]
  running := by
    have hcount : t.rxcnt.toNat = 1 := by rw [hcnt]; rfl
    rw [hcrc, hbuf, hlen, hcount]
    split
    next hlong =>
      rw [show min 1 (b.toNat - 1) = 0 + 1 by omega, Memory.span_succ, Memory.read_write_same]
      rfl
    next hshort =>
      rw [show min 1 (b.toNat - 1) = 0 by omega]
      rfl

theorem safe_chRxbyteLength (b : Byte) : Safe p (exec (.chRxbyteLength b) s) := by
  by_cases hp : s.phase = .awaitingLength
  · obtain ⟨-, hseed⟩ := h.inv.awaitingLength hp
    rw [exec_chRxbyteLength_awaiting b hp, hseed]
    obtain ⟨hcls, hcause, hst⟩ := h.inv.noResult (by simp [hp]) (by simp [hp])
    by_cases hzero : b = 0
    · simp only [if_pos hzero]
      refine safe_next (h.of_inv (inv_of_noResult (h.inv.buffers.of_write_rxbuf _ _) ⟨hcls, hcause, hst⟩ nofun nofun nofun nofun
        nofun fun _ => ⟨?_, receiving_of_first rfl rfl rfl rfl⟩))
      rw [hzero]
      rfl
    · simp only [if_neg hzero]
      have hpos : 1 ≤ b.toNat := by
        by_contra hlt
        exact hzero (BitVec.eq_of_toNat_eq (by simpa using hlt))
      exact safe_next (h.of_inv (inv_of_noResult (h.inv.buffers.of_write_rxbuf _ _) ⟨hcls, hcause, hst⟩ nofun nofun nofun nofun
        (fun _ => ⟨Nat.le_refl 1, hpos, receiving_of_first rfl rfl rfl rfl⟩) nofun))
  · rw [exec_chRxbyteLength_left b hp]
    exact safe_next (h.environment ..)

omit h in
/-- A further byte of a response (R177). -/
theorem Receiving.of_next {t : State} {b : Byte} (hrec : Receiving s) (hpos : 1 ≤ s.rxcnt.toNat)
    (hle : s.rxcnt.toNat ≤ s.rxlen.toNat) (hbuf : t.rxbuf = s.rxbuf.write s.rxcnt.toNat b) (hlen : t.rxlen = s.rxlen)
    (hcnt : t.rxcnt.toNat = s.rxcnt.toNat + 1)
    (hcrc : t.crc = if s.rxcnt.toNat + 2 ≤ s.rxlen.toNat then crcByte s.crc b else s.crc) : Receiving t where
  written i hi := by
    rw [hbuf, Memory.read_write]
    split
    next => rfl
    next hne => exact hrec.written i (by omega)
  lengthByte := by rw [hbuf, hlen, Memory.read_write_other _ _ (by omega), hrec.lengthByte]
  running := by
    rw [hcrc, hbuf, hlen, hcnt, hrec.running]
    split
    next hbefore =>
      rw [show min s.rxcnt.toNat (s.rxlen.toNat - 1) = s.rxcnt.toNat by omega,
        show min (s.rxcnt.toNat + 1) (s.rxlen.toNat - 1) = s.rxcnt.toNat + 1 by omega,
        Memory.span_succ, Memory.read_write_same, Memory.span_write _ _ _ _ (Nat.le_refl _), crc_concat]
      rfl
    next htrailer =>
      rw [show min (s.rxcnt.toNat + 1) (s.rxlen.toNat - 1) = min s.rxcnt.toNat (s.rxlen.toNat - 1) by omega,
        Memory.span_write _ _ _ _ (Nat.min_le_left _ _)]

theorem safe_chRxbyteBody (b : Byte) : Safe p (exec (.chRxbyteBody b) s) := by
  by_cases hp : s.phase = .awaitingBody
  · obtain ⟨hpos, hle, hrec⟩ := h.inv.awaitingBody hp
    obtain ⟨hcls, hcause, hst⟩ := h.inv.noResult (by simp [hp]) (by simp [hp])
    have hbound : s.rxlen.toNat < 256 := s.rxlen.isLt
    rw [exec_chRxbyteBody_awaiting b hp (Nat.lt_of_le_of_lt hle hbound)]
    have hcount : (BitVec.ofNat 9 (s.rxcnt.toNat + 1)).toNat = s.rxcnt.toNat + 1 :=
      Nat.mod_eq_of_lt (show s.rxcnt.toNat + 1 < 512 by omega)
    by_cases hlast : s.rxcnt.toNat = s.rxlen.toNat
    · simp only [if_pos hlast]
      exact safe_next (h.of_inv (inv_of_noResult (h.inv.buffers.of_write_rxbuf _ _) ⟨hcls, hcause, hst⟩ nofun nofun nofun nofun
        nofun fun _ => ⟨hcount.trans (hlast ▸ rfl), hrec.of_next hpos hle rfl rfl hcount rfl⟩))
    · simp only [if_neg hlast]
      exact safe_next (h.of_inv (inv_of_noResult (h.inv.buffers.of_write_rxbuf _ _) ⟨hcls, hcause, hst⟩ nofun nofun nofun nofun
        (fun _ => ⟨le_of_le_of_eq (Nat.le_add_left 1 _) hcount.symm, hcount.trans_le (Nat.lt_of_le_of_ne hle hlast),
          hrec.of_next hpos hle rfl rfl hcount rfl⟩) nofun))
  · rw [exec_chRxbyteBody_left b hp]
    exact safe_next (h.environment ..)

omit h in
/-- The classes that a rejected status is recorded with (R162, R211). -/
theorem resClass_status_mem_recordedFailures {v : Verdict} (hv : v ≠ .success) :
    (v.resClass, Cause.status) ∈ recordedFailures := by
  cases v with
  | success => exact absurd rfl hv
  | communication | protocol | program => decide

/-- VALIDATE reads only bytes that have been received, and a response it accepts is complete (R179, R223). -/
theorem safe_validate : Safe p (exec .validate s) := by
  by_cases hp : s.phase = .validating
  · obtain ⟨hcnt, hrec⟩ := h.inv.validating hp
    obtain ⟨hcls, hcause, hst⟩ := h.inv.noResult (by simp [hp]) (by simp [hp])
    by_cases hlong : 5 ≤ s.rxlen.toNat
    · have hread (i : Nat) (hi : i ≤ s.rxlen.toNat) : ∃ b, s.rxbuf.read i = some b :=
        Option.isSome_iff_exists.mp (hrec.written i (by omega))
      obtain ⟨lo, hlo⟩ := hread (s.rxlen.toNat - 1) (by omega)
      obtain ⟨hi, hhi⟩ := hread s.rxlen.toNat (Nat.le_refl _)
      obtain ⟨b, hb⟩ := hread 3 (by omega)
      rw [exec_validate_of_read hp hlong hlo hhi hb]
      split
      next =>
        exact safe_next (h.of_inv (inv_of_failed h.inv.buffers.of_eq rfl (by simp [recordedFailures]) fun _ _ => hst))
      next hcrc =>
        split
        next =>
          exact safe_next (h.of_inv (inv_of_failed h.inv.buffers.of_eq rfl (by simp [recordedFailures])
            fun _ hunknown => absurd rfl hunknown))
        next st hdecode =>
          by_cases hok : classify st = .success ∨ (st = .named .noTags ∧ s.txop = 0x01)
          · rw [judgeStatus_of_accepted (s := { s with resStatus := b }) hok]
            refine safe_next (h.of_inv (inv_of_success h.inv.buffers.of_eq rfl hcls hcause
              ⟨hlong, hcnt, hrec.of_eq, ?_, hb, st, hdecode, hok⟩))
            simpa [hlo, hhi] using (not_not.mp hcrc).symm
          · obtain ⟨hfailed, hno⟩ := not_or.mp hok
            rw [judgeStatus_of_rejected (s := { s with resStatus := b }) hfailed hno]
            exact safe_next (h.of_inv (inv_of_failed h.inv.buffers.of_eq rfl
              (resClass_status_mem_recordedFailures hfailed) fun hstatus _ => absurd rfl hstatus))
    · rw [exec_validate_of_short hp (Nat.not_le.mp hlong)]
      exact safe_next (h.of_inv (inv_of_failed h.inv.buffers.of_eq rfl (by simp [recordedFailures]) fun _ _ => hst))
  · rw [exec_validate_ignored hp]
    exact safe_next h

/-! ## Sequences of operations -/

omit h in
theorem safe_forEach {α : Type} {op : α → State → Result} (hop : ∀ x t, Good p t → Safe p (op x t)) (xs : List α) :
    ∀ {s : State}, Good p s → Safe p (forEach op xs s) := by
  induction xs with
  | nil => exact safe_next
  | cons x xs ih => exact fun h => (hop x _ h).andThen fun _ => ih

omit h in
theorem safe_sendAll (k : Nat) : ∀ {s : State}, Good p s → Safe p (sendAll k s) := by
  induction k with
  | zero => exact safe_next
  | succ k ih =>
    intro s h
    rw [sendAll]
    split
    · exact (safe_chTxbyte h).andThen fun _ => ih
    · exact safe_next h

omit h in
theorem safe_takeAll (bytes : List Byte) : ∀ {s : State}, Good p s → Safe p (takeAll bytes s) := by
  induction bytes with
  | nil => exact fun h => safe_next (h.environment ..)
  | cons b bytes ih =>
    intro s h
    rw [takeAll]
    split
    · exact (safe_chRxbyteLength h b).andThen fun _ => ih
    · exact (safe_chRxbyteBody h b).andThen fun _ => ih
    · exact safe_next (h.environment ..)

theorem safe_receive : Safe p (receive s) := (safe_takeAll _ h).andThen fun _ => safe_validate

theorem safe_beginExchange (op : Byte) (payload : List Byte) : Safe p (beginExchange op payload s) :=
  (safe_txClear h).andThen fun _ ht =>
    (safe_forEach (fun b _ ht => safe_txPush ht b) payload ht).andThen fun _ ht => safe_xchgStart ht op

theorem safe_meanwhile : Safe p (meanwhile s) := by
  unfold meanwhile
  split
  · exact (safe_sendAll _ h).andThen fun _ => safe_receive
  · exact safe_next h

omit h in
theorem safe_readBytes {k : List Byte → State → Result} (hk : ∀ got t, Good p t → Safe p (k got t)) (is : List Nat) :
    ∀ (got : List Byte) {s : State}, Good p s → Safe p (readBytes is got s k) := by
  induction is with
  | nil => exact fun got _ h => hk got _ h
  | cons i is ih => exact fun got _ h => (safe_rdRsp h _).andThen fun _ => ih _

theorem safe_readOutSuccess (task : Task) : Safe p (readOutSuccess task s) :=
  (safe_rdStatus h).andThen fun _ h => (safe_rdRxlen h).andThen fun _ h =>
    safe_readBytes (fun _ _ h => (safe_xchgAck h).andThen fun _ h => safe_next (h.environment ..)) _ _ h

theorem safe_readOutFailed : Safe p (readOutFailed s) :=
  (safe_rdResult h).andThen fun _ h => (safe_rdStatus h).andThen fun _ h =>
    (safe_xchgAck h).andThen fun _ h => safe_next (h.environment ..)

theorem safe_settle (task : Task) : Safe p (settle task s) := by
  unfold settle
  split
  · exact safe_readOutSuccess (h.environment ..) task
  · exact safe_readOutFailed (h.environment ..)
  · exact safe_next (h.environment ..)

theorem safe_exchange (task : Task) (op : Byte) (payload : List Byte) : Safe p (exchange task op payload s) :=
  (safe_beginExchange h op payload).andThen fun _ h => (safe_meanwhile h).andThen fun _ h => safe_settle h task

theorem safe_exchangeBuilt (task : Task) (op : Byte) (built : Except Failure (List Byte)) :
    Safe p (exchangeBuilt task op built s) := by
  cases built with
  | ok payload => exact safe_exchange h task op payload
  | error e => exact safe_next (h.environment ..)

theorem safe_sendCommand (address op : Byte) (payload : List Byte) : Safe p (sendCommand address op payload s) := by
  refine safe_inIdle h fun _ => (safe_cfgAddr h address).andThen fun _ h =>
    (safe_beginExchange h op payload).andThen fun _ h => ?_
  split
  · exact safe_sendAll _ h
  · exact safe_next h

theorem safe_sendBuilt (address op : Byte) (built : Except Failure (List Byte)) :
    Safe p (sendBuilt address op built s) := by
  cases built with
  | ok payload => exact safe_sendCommand h address op payload
  | error e => exact safe_next (h.environment ..)

theorem safe_deliver (bytes : List Byte) : Safe p (deliver bytes s) := safe_receive (h.environment ..)

theorem safe_pseudoCrc (m : List Byte) : Safe p (execPseudoCrc m s) :=
  (safe_crcInit h).andThen fun _ h =>
    (safe_forEach (fun b _ h => safe_crcUpdate h b) m h).andThen fun _ => safe_crcRead

/-! ## Every instruction and every step -/

theorem safe_exec (i : Instr) : Safe p (exec i s) := by
  cases i with
  | cmdInventory a | cmdGetReaderInformation a => exact safe_sendCommand h a _ _
  | cmdReadData a _ | cmdWriteData a _ | cmdKillTag a _ => exact safe_sendBuilt h a _ _
  | crcInit => exact safe_crcInit h
  | crcUpdate b => exact safe_crcUpdate h b
  | crcRead => exact safe_crcRead h
  | cfgAddr a => exact safe_cfgAddr h a
  | txClear => exact safe_txClear h
  | txPush b => exact safe_txPush h b
  | xchgStart op => exact safe_xchgStart h op
  | xchgAck => exact safe_xchgAck h
  | rdPhase => exact safe_rdPhase h
  | rdResult => exact safe_rdResult h
  | rdStatus => exact safe_rdStatus h
  | rdAddr => exact safe_rdAddr h
  | rdRxlen => exact safe_rdRxlen h
  | rdTxlen => exact safe_rdTxlen h
  | rdRsp k => exact safe_rdRsp h k
  | chTxbyte => exact safe_chTxbyte h
  | chRxbyteLength b => exact safe_chRxbyteLength h b
  | chRxbyteBody b => exact safe_chRxbyteBody h b
  | chIoerr => exact safe_chIoerr h
  | validate => exact safe_validate h
  | reset => exact safe_reset h
  | pseudoCrc m => exact safe_pseudoCrc h m
  | pseudoXchg op payload => exact safe_exchange h _ op payload
  | readerInformation | inventory => exact safe_exchange h _ _ _
  | readData _ | writeData _ | kill _ => exact safe_exchangeBuilt h _ _ _
  | _ => exact safe_deliver h _

end

/-- The state that an action runs on. -/
def Action.state : Action → State
  | .run _ s | .illegal s | .send _ s | .reject _ s | .goOn _ s | .wait s => s

section
variable {p : Params} {s : State}

theorem Good.enterMoment (h : Good p s) : Good p (enterMoment s) := h.environment ..

theorem Good.keepOffer (h : Good p s) (m : Moment) : Good p (keepOffer m s) := h.environment ..

theorem state_hostTurn (m : Moment) (s : State) : (hostTurn m s).state = s := by
  unfold hostTurn
  split
  next offer _ =>
    unfold hostAction
    split
    · split <;> rfl
    · split
      · rfl
      · split <;> rfl
    · rfl
  next =>
    split
    · split <;> rfl
    · rfl

theorem good_internalTurn (h : Good p s) (m : Moment) : Good p (internalTurn m s).state := by
  unfold internalTurn
  split
  · exact h.keepOffer m
  · exact (state_hostTurn m s).symm ▸ h

theorem good_channelTurn (h : Good p s) (m : Moment) : Good p (channelTurn m s).state := by
  unfold channelTurn
  split
  · exact h.keepOffer m
  · exact (h.environment ..).keepOffer m
  · exact (h.environment ..).keepOffer m
  · exact good_internalTurn h m

theorem good_frameTurn (h : Good p s) (m : Moment) : Good p (frameTurn m s).state := by
  unfold frameTurn
  split
  · split
    · exact h.keepOffer _
    · exact (h.environment ..).keepOffer _
  · exact good_channelTurn h m

theorem good_nextAction (h : Good p s) : Good p (nextAction s).state := by
  unfold nextAction choose
  split
  · exact h.enterMoment.keepOffer _
  · split
    · exact h.enterMoment.keepOffer _
    · exact good_frameTurn h.enterMoment _

theorem safe_step (h : Good p s) : Safe p (step s) := by
  have hstate := good_nextAction h
  unfold step
  split
  next i t heq => rw [heq] at hstate; exact safe_exec hstate i
  next t heq => rw [heq] at hstate; exact safe_next (hstate.respond _ _)
  next f t heq => rw [heq] at hstate; exact safe_sendCommand hstate _ _ _
  next e t heq => rw [heq] at hstate; exact safe_next (hstate.environment ..)
  next task t heq => rw [heq] at hstate; exact safe_settle hstate task
  next t heq => rw [heq] at hstate; exact safe_next hstate

end

/-! ## The obligations -/

/-- Settles O58: the reset state is idle, with nothing staged and no outcome. -/
theorem invAtReset : Obligations.InvAtReset :=
  inv_of_idle ⟨by decide, by decide, rfl, rfl⟩ rfl ⟨rfl, rfl, rfl⟩

/-- Settles O59: every step from the invariant goes on into it. -/
theorem stepKeepsInv : Obligations.StepKeepsInv := by
  intro s t hinv hstep
  obtain ⟨u, hu, hgood⟩ := safe_step ⟨hinv, rfl⟩
  cases hu.symm.trans hstep
  exact hgood.inv

/-- Settles O60: instructions and steps are safe in the invariant. -/
theorem noStop : Obligations.NoStop := by
  refine ⟨fun i s hinv => ?instruction, fun s hinv => ?step⟩
  case instruction =>
    obtain ⟨t, ht, hgood⟩ := safe_exec ⟨hinv, rfl⟩ i
    exact ⟨t, ht, hgood.params⟩
  case step =>
    obtain ⟨t, ht, hgood⟩ := safe_step ⟨hinv, rfl⟩
    exact ⟨t, ht, hgood.params⟩

end Sys2Proof.Machine
end

section
/-! The step (60_exceptions.md R217): which of the things offered at one moment it takes, and that it runs the
instruction that the offer decodes to. -/

namespace Sys2Proof.Machine

/-! ## The present moment -/

section
variable {s : State} {m : Moment} {rest : List Moment} (h : s.moments = m :: rest)
include h

theorem presentMoment_of_cons : presentMoment s = m := by rw [presentMoment, h]; rfl

theorem enterMoment_of_cons : enterMoment s = arrived s m rest := by
  rw [enterMoment, presentMoment_of_cons h, h]
  rfl

theorem nextAction_of_cons : nextAction s = choose m (arrived s m rest) := by
  rw [nextAction, presentMoment_of_cons h, enterMoment_of_cons h]

end

/-- With nothing more in the run the present moment changes nothing by itself. -/
theorem enterMoment_of_nil {s : State} (h : s.moments = []) : enterMoment s = s := by
  cases s
  subst h
  simp [enterMoment, presentMoment, quietMoment]

/-! ## The host's turn -/

section
variable {s : State} {m : Moment} {rest : List Moment} (h : s.moments = m :: rest) (hf : HostFirst s m)
include h hf

theorem step_of_host {i : Instr} {offer : HostOffer} (hh : m.host = some offer)
    (ha : hostAction offer (arrived s m rest) = .run i (arrived s m rest)) :
    step s = exec i (arrived s m rest) := by
  rw [step, nextAction_of_hostFirst h hf, hostTurn, hh]
  dsimp only
  rw [ha]

/-- R87: a word that decodes to no operation is answered, and nothing else changes. -/
theorem step_of_illegalWord {w : Word} {e : DecodeError} (hh : m.host = some (.word w))
    (he : decodeHost w = .error e) :
    step s = .next { arrived s m rest with answer := some ⟨.illegal, 0⟩ } := by
  rw [step, nextAction_of_hostFirst h hf, hostTurn, hh]
  simp only [hostAction, he]
  rfl

end

/-! ## The order of R217 -/

theorem nextAction_of_frame {s : State} {m : Moment} {rest : List Moment} {bytes : List Byte} {i : Instr}
    (h : s.moments = m :: rest) (hrst : m.rst = false) (herr : m.ioErr = false) (hframe : m.frame = some bytes)
    (hhost : m.host = none) (hi : decode s.params .rsp bytes = .ok i) :
    nextAction s = .run i (arrived s m rest) := by
  have hparams : (arrived s m rest).params = s.params := rfl
  rw [nextAction_of_cons h, choose, hrst, herr, if_neg Bool.false_ne_true, if_neg Bool.false_ne_true, frameTurn,
    hframe]
  dsimp only
  rw [hparams, hi]
  simp [keepOffer, leftover, hhost]

theorem nextAction_of_channel {s : State} (hrst : (presentMoment s).rst = false)
    (herr : (presentMoment s).ioErr = false) (hframe : (presentMoment s).frame = none) :
    nextAction s = channelTurn (presentMoment s) (enterMoment s) := by
  rw [nextAction, choose, hrst, herr, if_neg Bool.false_ne_true, if_neg Bool.false_ne_true, frameTurn, hframe]

/-- The phase enables no byte of the channel: it takes none, or none is there to be delivered. -/
def NoByte (m : Moment) (s : State) : Prop :=
  m.chan = true → s.phase ≠ .sending ∧ (s.phase = .awaitingLength ∨ s.phase = .awaitingBody → s.rxStream = [])

section
variable {m : Moment} {s : State} {b : Byte} {bytes : List Byte}

theorem channelTurn_of_sending (hc : m.chan = true) (hp : s.phase = .sending) :
    channelTurn m s = .run .chTxbyte (keepOffer m s) := by
  simp only [channelTurn, hc, hp]

theorem channelTurn_of_awaitingLength (hc : m.chan = true) (hp : s.phase = .awaitingLength)
    (hx : s.rxStream = b :: bytes) :
    channelTurn m s = .run (.chRxbyteLength b) (keepOffer m { s with rxStream := bytes }) := by
  simp only [channelTurn, hc, hp, hx]

theorem channelTurn_of_awaitingBody (hc : m.chan = true) (hp : s.phase = .awaitingBody)
    (hx : s.rxStream = b :: bytes) :
    channelTurn m s = .run (.chRxbyteBody b) (keepOffer m { s with rxStream := bytes }) := by
  simp only [channelTurn, hc, hp, hx]

theorem channelTurn_of_noByte (h : NoByte m s) : channelTurn m s = internalTurn m s := by
  unfold channelTurn
  split
  next hc hp => exact absurd hp (h hc).1
  next hc hp hx => simp [(h hc).2 (.inl hp)] at hx
  next hc hp hx => simp [(h hc).2 (.inr hp)] at hx
  next => rfl

end

/-- What is left of a moment whose host operation has not been taken (R215, R217). -/
theorem leftover_of_host {m : Moment} {offer : HostOffer} (h : m.host = some offer) :
    leftover m = [{ m with rst := false, ioErr := false, bytes := [] }] :=
  if_neg fun ⟨_, hnone⟩ => by simp [h] at hnone

/-- Settles O56: R217's choice, branch by branch. -/
theorem precedence : Obligations.Precedence := by
  intro s
  refine ⟨fun hrst => if_pos hrst, fun hrst herr => ?error, fun hrst herr hframe => ⟨fun hchan hp => ?sent,
    fun b bytes hchan hp hbytes => ?lengthByte, fun b bytes hchan hp hbytes => ?bodyByte, fun hint hp => ?internal⟩,
    fun m rest offer h hhost => ⟨enterMoment_of_cons h, ?waits⟩⟩
  case error => rw [nextAction, choose, hrst, if_neg Bool.false_ne_true, if_pos herr]
  case sent => rw [nextAction_of_channel hrst herr hframe, channelTurn_of_sending (s := enterMoment s) hchan hp]
  case lengthByte =>
    rw [nextAction_of_channel hrst herr hframe, channelTurn_of_awaitingLength (s := enterMoment s) hchan hp hbytes]
    rfl
  case bodyByte =>
    rw [nextAction_of_channel hrst herr hframe, channelTurn_of_awaitingBody (s := enterMoment s) hchan hp hbytes]
    rfl
  case internal =>
    have hphase : (enterMoment s).phase = .validating := hp
    rw [nextAction_of_channel hrst herr hframe, channelTurn_of_noByte (by simp [NoByte, hphase])]
    exact if_pos ⟨hint, hp⟩
  case waits =>
    rw [keepOffer, leftover_of_host hhost]
    exact ⟨_, rfl, hhost, rfl, rfl, rfl, rfl⟩

/-- Settles O54: the host's offer in the host's turn, and a response frame that is delivered. -/
theorem stepRunsDecoded : Obligations.StepRunsDecoded := by
  refine fun s m rest i h => ⟨fun hf hoffer => ?host, fun bytes hrst herr hframe hhost hi => ?frame⟩
  case host =>
    rcases hoffer with ⟨w, hh, hi⟩ | ⟨bytes, hh, hi⟩ | ⟨q, hh, hi⟩
    · exact step_of_host h hf hh (by rw [hostAction, hi])
    · exact step_of_host h hf hh (by rw [hostAction, show (arrived s m rest).params = s.params from rfl, hi])
    · exact step_of_host h hf hh (by rw [hostAction, hi])
  case frame => rw [step, nextAction_of_frame h hrst herr hframe hhost hi]

/-! ## Words of the opcode table (log 7, log 11) -/

theorem decodeHost_of_decode {p : Params} {bytes : List Byte} {i : Instr} (h : decode p .host bytes = .ok i) :
    decodeHost (le16 (bytes.getD 0 0) (bytes.getD 1 0)) = .ok i := by
  match bytes, h with
  | [_, _], h => exact h

/-- A word that is read as an instruction has a format, and its bytes decode in this format. -/
theorem exists_tableWord_of_decodeTableWord {nbits w : Nat} {i : Instr} (h : decodeTableWord nbits w = some i) :
    ∃ fmt bytes, tableWord nbits w = some (fmt, bytes) ∧ decode Params.defaults fmt bytes = .ok i := by
  unfold decodeTableWord at h
  split at h
  next fmt bytes hword =>
    split at h
    next hdecode => cases h; exact ⟨fmt, bytes, hword, hdecode⟩
    next => cases h
  next => cases h

/-- Where a moment ends up that brings no bytes to an idle block and lets the channel be ready. -/
theorem arrived_withFetchWord {s : State} (nbits w : Nat) (hp : s.phase = .idle) :
    arrived (s.withFetchWord nbits w) (tableMoment s nbits w) s.moments = { s with chanReady := true } := by
  have hmoment : (tableMoment s nbits w).chan = true ∧ (tableMoment s nbits w).bytes = [] := by
    unfold tableMoment
    split <;> simp [hp]
  simp [arrived, State.withFetchWord, hmoment]

/-- Settles O55: the moment of a word offers the word and nothing else, to the host's turn or as a frame. -/
theorem stepRunsTableWord : Obligations.StepRunsTableWord := by
  intro s nbits w i hparams hp hdecoded
  obtain ⟨fmt, bytes, hword, hdecode⟩ := exists_tableWord_of_decodeTableWord hdecoded
  rw [← hparams] at hdecode
  obtain ⟨hhost, hframe⟩ := stepRunsDecoded (s.withFetchWord nbits w) (tableMoment s nbits w) s.moments i rfl
  rw [arrived_withFetchWord nbits w hp] at hhost hframe
  have hidle : (s.withFetchWord nbits w).phase = .idle := hp
  cases fmt with
  | host =>
    refine hhost (by simp [HostFirst, tableMoment, hword, hidle]) (.inl ⟨_, ?_, decodeHost_of_decode hdecode⟩)
    simp [tableMoment, hword]
  | cmd =>
    refine hhost (by simp [HostFirst, tableMoment, hword, hidle]) (.inr (.inl ⟨bytes, ?_, hdecode⟩))
    simp [tableMoment, hword]
  | rsp => refine hframe bytes ?_ ?_ ?_ ?_ hdecode <;> simp [tableMoment, hword]
  | event | pseudo => cases hdecode

/-! ## Waiting (R251) -/

/-- With nothing more offered, and no byte of the channel and no VALIDATE to come, it is the waiting host's turn. -/
theorem nextAction_of_nothing_offered {s : State} (h : s.moments = []) (hbyte : NoByte (quietMoment s) s)
    (hp : s.phase ≠ .validating) :
    nextAction s = match s.task with
      | some task => if done s then .goOn task s else .wait s
      | none => .wait s := by
  have hpresent : presentMoment s = quietMoment s := by rw [presentMoment, h]; rfl
  have henter := enterMoment_of_nil h
  rw [nextAction_of_channel (hpresent ▸ rfl) (hpresent ▸ rfl) (hpresent ▸ rfl), hpresent, henter,
    channelTurn_of_noByte hbyte, internalTurn, if_neg fun hint => hp hint.2]
  rfl

theorem step_of_nothing_offered {s : State} (h : s.moments = []) (hbyte : NoByte (quietMoment s) s)
    (hp : s.phase ≠ .validating) (hdone : done s = false) : step s = .next s := by
  rw [step, nextAction_of_nothing_offered h hbyte hp]
  cases s.task <;> simp [hdone]

/-- Settles O57: in none of these phases has an exchange ended. -/
theorem waitsForEver : Obligations.WaitsForEver := by
  refine fun s hmoments => ⟨fun hp hstream => ?receiving, fun hp hchan => ?sending⟩
  case receiving =>
    refine step_of_nothing_offered hmoments (fun _ => ⟨?_, fun _ => hstream⟩) ?_ ?_ <;>
      rcases hp with hp | hp <;> simp [hp, done]
  case sending =>
    exact step_of_nothing_offered hmoments (fun hready => absurd hready (Bool.eq_false_iff.mp hchan)) (by simp [hp])
      (by simp [hp, done])

end Sys2Proof.Machine
end

section
/-! What the block's operations and events can do to its state (45_exchange_fsm.md R170, R188, R199, 10_state.md section 2,
60_exceptions.md R212): one relation says every outcome once, and the properties are read off it. -/

namespace Sys2Proof.Machine

/-! ## Outside the legal phases -/

/-- Every host operation is legal by its row of R79 and refused elsewhere (R188). -/
theorem exists_exec_eq_inPhase {i : Instr} (hi : i.format = .host) (s : State) :
    ∃ k, exec i s = inPhase (legalIn i) s k := by
  cases i with
  | crcInit | crcUpdate _ | crcRead | cfgAddr _ | txClear | txPush _ | xchgStart _ | xchgAck | rdPhase | rdResult
  | rdStatus | rdAddr | rdRxlen | rdTxlen | rdRsp _ => exact ⟨_, rfl⟩
  | _ => cases hi

theorem exec_refused {i : Instr} {s : State} (hi : i.format = .host) (hl : legalIn i s.phase = false) :
    exec i s = .next { s with answer := some ⟨.refused, 0⟩ } := by
  obtain ⟨k, hk⟩ := exists_exec_eq_inPhase hi s
  rw [hk, inPhase, hl]
  rfl

/-! ## Every outcome -/

/-- The host operations that ask for a value and change nothing (R110, R181 to R187). -/
def isQuery : Instr → Bool
  | .crcRead | .rdPhase | .rdResult | .rdStatus | .rdAddr | .rdRxlen | .rdTxlen | .rdRsp _ => true
  | _ => false

/-- What an operation or event of the block can make of a state. -/
inductive Effect : Instr → State → State → Prop
  /-- a refusal (R188), or a value asked for: only the answer is new -/
  | answered {i s} (a : Answer) (hi : i.format = .host) (h : legalIn i s.phase = false ∨ isQuery i = true) :
    Effect i s { s with answer := some a }
  /-- an event outside its phases (R215; log 17) -/
  | ignored {i s} (hi : i.format = .event) (h : legalIn i s.phase = false) : Effect i s s
  /-- a byte that no phase takes (R53) -/
  | leftLength {b s} (hp : s.phase ≠ .awaitingLength) :
    Effect (.chRxbyteLength b) s { s with rxStream := b :: s.rxStream }
  | leftBody {b s} (hp : s.phase ≠ .awaitingBody) :
    Effect (.chRxbyteBody b) s { s with rxStream := b :: s.rxStream }
  | crcInit {s} (hp : s.phase = .idle) : Effect .crcInit s { s with crc := 0xFFFF, answer := some ⟨.ok, 0⟩ }
  | crcUpdate {b s} (hp : s.phase = .idle) :
    Effect (.crcUpdate b) s { s with crc := crcByte s.crc b, answer := some ⟨.ok, 0⟩ }
  | cfgAddr {a s} (hp : s.phase = .idle) : Effect (.cfgAddr a) s { s with addr := a, answer := some ⟨.ok, 0⟩ }
  | txClear {s} (hp : s.phase = .idle) : Effect .txClear s { s with txlen := 0, answer := some ⟨.ok, 0⟩ }
  | pushed {b s} (hp : s.phase = .idle) (hroom : s.txlen.toNat < 251) :
    Effect (.txPush b) s
      { s with
        txbuf := s.txbuf.write s.txlen.toNat b, txlen := BitVec.ofNat 8 (s.txlen.toNat + 1)
        answer := some ⟨.ok, 0⟩ }
  | overflowed {b s} (hp : s.phase = .idle) : Effect (.txPush b) s { s with txlen := 252, answer := some ⟨.ok, 0⟩ }
  | startFailed {op s} (cause : Cause) (hp : s.phase = .idle) (hc : cause = .illegalOperation ∨ cause = .payloadTooLong)
    (hbad : ¬(isOperation op = true ∧ s.txlen.toNat ≤ maxPayload)) :
    Effect (.xchgStart op) s
      { s with
        crc := 0xFFFF, txop := op, txidx := 0, resStatus := 0x00, phase := .failed
        resClass := .program, resCause := cause, answer := some ⟨.ok, 0⟩ }
  | started {op s} (hp : s.phase = .idle) (hop : isOperation op = true ∧ s.txlen.toNat ≤ maxPayload) :
    Effect (.xchgStart op) s
      { s with
        crc := 0xFFFF, txop := op, txidx := 0, resStatus := 0x00, phase := .sending
        resClass := .none, resCause := .none, answer := some ⟨.ok, 0⟩ }
  | acknowledged {s} (hp : s.phase = .success ∨ s.phase = .failed) :
    Effect .xchgAck s
      { s with
        phase := .idle, crc := 0xFFFF, txlen := 0
        resClass := .none, resCause := .none, resStatus := 0x00, answer := some ⟨.ok, 0⟩ }
  | sent {s} (b : Byte) (hp : s.phase = .sending) :
    Effect .chTxbyte s
      { s with
        txStream := s.txStream ++ [b]
        txidx := BitVec.ofNat 9 (s.txidx.toNat + 1)
        crc := if s.txidx.toNat < s.txlen.toNat + 3 then crcByte s.crc b
          else if s.txidx.toNat = s.txlen.toNat + 4 then 0xFFFF else s.crc
        phase := if s.txidx.toNat = s.txlen.toNat + 4 then .awaitingLength else .sending
        rxcnt := if s.txidx.toNat = s.txlen.toNat + 4 then 0 else s.rxcnt }
  | tookLength {b s} (hp : s.phase = .awaitingLength) :
    Effect (.chRxbyteLength b) s
      { s with
        rxbuf := s.rxbuf.write 0 b, rxlen := b, rxcnt := 1
        crc := if 2 ≤ b.toNat then crcByte s.crc b else s.crc
        phase := if b = 0 then .validating else .awaitingBody }
  | tookBody {b s} (hp : s.phase = .awaitingBody) :
    Effect (.chRxbyteBody b) s
      { s with
        rxbuf := s.rxbuf.write s.rxcnt.toNat b, rxcnt := BitVec.ofNat 9 (s.rxcnt.toNat + 1)
        crc := if s.rxcnt.toNat + 2 ≤ s.rxlen.toNat then crcByte s.crc b else s.crc
        phase := if s.rxcnt.toNat = s.rxlen.toNat then .validating else .awaitingBody }
  | raised {s} (hp : s.phase = .sending ∨ s.phase = .awaitingLength ∨ s.phase = .awaitingBody) :
    Effect .chIoerr s { s with phase := .failed, resClass := .io, resCause := .channelError }
  | invalid {s} (cause : Cause) (hp : s.phase = .validating) (hc : cause = .badLength ∨ cause = .badCrc) :
    Effect .validate s { s with phase := .failed, resClass := .program, resCause := cause }
  | unknown {s} (b : Byte) (hp : s.phase = .validating) :
    Effect .validate s
      { s with resStatus := b, phase := .failed, resClass := .program, resCause := .unknownStatus }
  | accepted {s} (b : Byte) (hp : s.phase = .validating) : Effect .validate s { s with resStatus := b, phase := .success }
  | rejected {s} (b : Byte) (cls : ResClass) (hp : s.phase = .validating)
    (hcls : cls = .communication ∨ cls = .protocol ∨ cls = .program) :
    Effect .validate s { s with resStatus := b, phase := .failed, resClass := cls, resCause := .status }
  | reset {s} : Effect .reset s (resetBlock s)

theorem memRead_eq_ok {sp : Space} {i : Nat} {s : State} {b : Byte} (h : memRead sp i s = .ok b) :
    (s.buffer sp).read i = some b := by
  rcases memRead_cases sp i s with ⟨c, -, hc, heq⟩ | ⟨-, -, heq⟩ | ⟨-, heq⟩ <;> rw [heq] at h
  · cases h; exact hc
  · cases h
  · cases h

/-- The class of a rejected status (R162). -/
theorem resClass_of_ne_success {v : Verdict} (h : v ≠ .success) :
    v.resClass = .communication ∨ v.resClass = .protocol ∨ v.resClass = .program := by
  cases v with
  | success => exact absurd rfl h
  | communication => exact .inl rfl
  | protocol => exact .inr (.inl rfl)
  | program => exact .inr (.inr rfl)

section
variable {s t : State}

theorem effect_of_xchgStart {op : Byte} (hp : s.phase = .idle) (h : exec (.xchgStart op) s = .next t) :
    Effect (.xchgStart op) s t := by
  cases hop : isOperation op with
  | false =>
    rw [exec_xchgStart_of_illegal hp hop] at h
    cases h
    exact .startFailed _ hp (.inl rfl) (by simp [hop])
  | true =>
    rw [exec_xchgStart_of_operation hp hop] at h
    cases h
    split
    next hlong => exact .startFailed _ hp (.inr rfl) fun ⟨_, hfits⟩ => Nat.not_le.mpr hlong hfits
    next hfits => exact .started hp ⟨hop, Nat.not_lt.mp hfits⟩

theorem effect_of_txPush {b : Byte} (hp : s.phase = .idle) (h : exec (.txPush b) s = .next t) :
    Effect (.txPush b) s t := by
  by_cases hroom : s.txlen.toNat < 251
  · rw [exec_txPush_of_room hp b hroom] at h
    cases h
    exact .pushed hp hroom
  · rw [exec_txPush_of_full hp b (Nat.not_lt.mp hroom)] at h
    cases h
    exact .overflowed hp

/-- Past the second trailer byte there is no byte to send (R175; log 4). -/
theorem txidx_le_of_commandByte {b : Byte} (h : commandByte s = .ok b) : s.txidx.toNat ≤ s.txlen.toNat + 4 := by
  by_contra hlt
  have hpast : commandByte s = .error .noSuchWireByte := by
    unfold commandByte
    rw [if_neg (by omega), if_neg (by omega), if_neg (by omega), if_neg (by omega), if_neg (by omega),
      if_neg (by omega)]
  rw [hpast] at h
  cases h

theorem effect_of_chTxbyte (hp : s.phase = .sending) (h : exec .chTxbyte s = .next t) : Effect .chTxbyte s t := by
  have hstep : execChTxbyte s = .next t := h
  rw [execChTxbyte, if_pos hp] at hstep
  obtain ⟨b, hb, -⟩ := withValue_eq_next hstep
  rw [exec_chTxbyte_of_byte hp (txidx_le_of_commandByte hb) hb] at h
  cases h
  exact .sent b hp

theorem effect_of_chRxbyteBody {b : Byte} (hp : s.phase = .awaitingBody) (h : exec (.chRxbyteBody b) s = .next t) :
    Effect (.chRxbyteBody b) s t := by
  have hstep : execChRxbyteBody b s = .next t := h
  rw [execChRxbyteBody, if_pos hp] at hstep
  obtain ⟨u, hwrite, -⟩ := withValue_eq_next hstep
  rw [exec_chRxbyteBody_awaiting b hp (memWrite_ok _ _ _ _ _ hwrite).1] at h
  cases h
  exact .tookBody hp

theorem effect_judgeStatus (hp : s.phase = .validating) (st : Status) (b : Byte) :
    Effect .validate s (judgeStatus st { s with resStatus := b }) := by
  by_cases hok : classify st = .success ∨ (st = .named .noTags ∧ s.txop = 0x01)
  · rw [judgeStatus_of_accepted (s := { s with resStatus := b }) hok]
    exact .accepted b hp
  · obtain ⟨hcls, hno⟩ := not_or.mp hok
    rw [judgeStatus_of_rejected (s := { s with resStatus := b }) hcls hno]
    exact .rejected b _ hp (resClass_of_ne_success hcls)

theorem effect_of_validate (hp : s.phase = .validating) (h : exec .validate s = .next t) : Effect .validate s t := by
  by_cases hlong : 5 ≤ s.rxlen.toNat
  · have hstep : execValidate s = .next t := h
    rw [execValidate, if_pos hp] at hstep
    dsimp only at hstep
    rw [if_neg (show ¬ s.rxlen.toNat < minRspLength from Nat.not_lt.mpr hlong)] at hstep
    obtain ⟨lo, hlo, hstep⟩ := withValue_eq_next hstep
    obtain ⟨hi, hhi, hstep⟩ := withValue_eq_next hstep
    by_cases hcrc : s.crc ≠ le16 lo hi
    · rw [if_pos hcrc] at hstep
      cases hstep
      exact .invalid .badCrc hp (.inr rfl)
    · rw [if_neg hcrc] at hstep
      obtain ⟨b, hb, -⟩ := withValue_eq_next hstep
      rw [exec_validate_of_read hp hlong (memRead_eq_ok hlo) (memRead_eq_ok hhi) (memRead_eq_ok hb), if_neg hcrc] at h
      cases h
      cases statusDecode s.params b with
      | none => exact .unknown b hp
      | some st => exact effect_judgeStatus hp st b
  · rw [exec_validate_of_short hp (Nat.not_le.mp hlong)] at h
    cases h
    exact .invalid .badLength hp (.inl rfl)

theorem effect_of_rdRsp {k : Byte} (hp : s.phase = .success) (h : exec (.rdRsp k) s = .next t) :
    Effect (.rdRsp k) s t := by
  by_cases hrange : s.rxlen.toNat < k.toNat + 2
  · cases (exec_rdRsp_of_out_of_range hp hrange).symm.trans h
    exact .answered _ rfl (.inr rfl)
  · have hk : k.toNat + 2 ≤ s.rxlen.toNat := Nat.not_lt.mp hrange
    have hstep : execRdRsp k s = .next t := h
    rw [execRdRsp, inSuccess_success hp, if_neg hrange] at hstep
    obtain ⟨b, hb, -⟩ := withValue_eq_next hstep
    cases (exec_rdRsp_of_read hp hk (memRead_eq_ok hb)).symm.trans h
    exact .answered _ rfl (.inr rfl)

/-- In its legal phases. -/
theorem effect_of_legal {i : Instr} (hl : legalIn i s.phase = true) (h : exec i s = .next t) : Effect i s t := by
  cases i with
  | rdPhase | rdResult | rdAddr | rdTxlen => cases h; exact .answered _ rfl (.inr rfl)
  | crcRead =>
    cases (exec_crcRead_idle (by simpa [legalIn] using hl)).symm.trans h
    exact .answered _ rfl (.inr rfl)
  | rdStatus =>
    cases (exec_rdStatus_done (by simpa [legalIn] using hl)).symm.trans h
    exact .answered _ rfl (.inr rfl)
  | rdRxlen =>
    cases (exec_rdRxlen_success (by simpa [legalIn] using hl)).symm.trans h
    exact .answered _ rfl (.inr rfl)
  | rdRsp k => exact effect_of_rdRsp (by simpa [legalIn] using hl) h
  | crcInit =>
    have hp : s.phase = .idle := by simpa [legalIn] using hl
    cases (exec_crcInit_idle hp).symm.trans h
    exact .crcInit hp
  | crcUpdate b =>
    have hp : s.phase = .idle := by simpa [legalIn] using hl
    cases (exec_crcUpdate_idle b hp).symm.trans h
    exact .crcUpdate hp
  | cfgAddr a =>
    have hp : s.phase = .idle := by simpa [legalIn] using hl
    cases (exec_cfgAddr_idle hp a).symm.trans h
    exact .cfgAddr hp
  | txClear =>
    have hp : s.phase = .idle := by simpa [legalIn] using hl
    cases (exec_txClear_idle hp).symm.trans h
    exact .txClear hp
  | txPush b => exact effect_of_txPush (by simpa [legalIn] using hl) h
  | xchgStart op => exact effect_of_xchgStart (by simpa [legalIn] using hl) h
  | xchgAck =>
    have hp : s.phase = .success ∨ s.phase = .failed := by simpa [legalIn] using hl
    cases (exec_xchgAck_done hp).symm.trans h
    exact .acknowledged hp
  | chTxbyte => exact effect_of_chTxbyte (by simpa [legalIn] using hl) h
  | chRxbyteLength b =>
    have hp : s.phase = .awaitingLength := by simpa [legalIn] using hl
    cases (exec_chRxbyteLength_awaiting b hp).symm.trans h
    exact .tookLength hp
  | chRxbyteBody b => exact effect_of_chRxbyteBody (by simpa [legalIn] using hl) h
  | chIoerr =>
    have hp : s.phase = .sending ∨ s.phase = .awaitingLength ∨ s.phase = .awaitingBody := by
      simpa [legalIn, or_assoc] using hl
    cases (exec_chIoerr_raised hp).symm.trans h
    exact .raised hp
  | validate => exact effect_of_validate (by simpa [legalIn] using hl) h
  | reset => cases h; exact .reset
  | _ => cases hl

/-- Outside its legal phases an operation is refused, and an event does not happen. -/
theorem effect_of_not_legal {i : Instr} (hblock : isOperationOfBlock i = true) (hl : legalIn i s.phase = false)
    (h : exec i s = .next t) : Effect i s t := by
  cases i with
  | crcInit | crcUpdate _ | crcRead | cfgAddr _ | txClear | txPush _ | xchgStart _ | xchgAck | rdPhase | rdResult
  | rdStatus | rdAddr | rdRxlen | rdTxlen | rdRsp _ =>
    cases (exec_refused rfl hl).symm.trans h
    exact .answered _ rfl (.inl hl)
  | chTxbyte =>
    cases (exec_chTxbyte_ignored (by simpa [legalIn] using hl)).symm.trans h
    exact .ignored rfl hl
  | chRxbyteLength b =>
    have hp : s.phase ≠ .awaitingLength := by simpa [legalIn] using hl
    cases (exec_chRxbyteLength_left b hp).symm.trans h
    exact .leftLength hp
  | chRxbyteBody b =>
    have hp : s.phase ≠ .awaitingBody := by simpa [legalIn] using hl
    cases (exec_chRxbyteBody_left b hp).symm.trans h
    exact .leftBody hp
  | chIoerr =>
    obtain ⟨⟨hs, hl'⟩, hb⟩ : (s.phase ≠ .sending ∧ s.phase ≠ .awaitingLength) ∧ s.phase ≠ .awaitingBody := by
      simpa [legalIn] using hl
    cases (exec_chIoerr_dropped hs hl' hb).symm.trans h
    exact .ignored rfl hl
  | validate =>
    cases (exec_validate_ignored (by simpa [legalIn] using hl)).symm.trans h
    exact .ignored rfl hl
  | reset => cases hl
  | _ => simp [isOperationOfBlock, Instr.format] at hblock

end

/-- Every next state of an operation or event is one of its effects. -/
theorem effect_of_exec {i : Instr} {s t : State} (hblock : isOperationOfBlock i = true) (h : exec i s = .next t) :
    Effect i s t := by
  cases hl : legalIn i s.phase with
  | true => exact effect_of_legal hl h
  | false => exact effect_of_not_legal hblock hl h

/-! ## The phase (R170) -/

/-- Outside its legal phases nothing moves the phase, in R170's table as in R79's. -/
theorem nextPhase_self_of_not_legal {i : Instr} {s : State} (h : legalIn i s.phase = false) :
    nextPhase i s s.phase := by
  fun_cases Machine.nextPhase i s
  case case11 => cases h
  case case12 => rfl
  all_goals
    next hp => simp [legalIn, hp] at h

theorem nextPhase_self_of_query {i : Instr} {s : State} (h : isQuery i = true) : nextPhase i s s.phase := by
  fun_cases Machine.nextPhase i s
  case case12 => rfl
  all_goals cases h

theorem Effect.nextPhase {i : Instr} {s t : State} (h : Effect i s t) : nextPhase i s t.phase := by
  cases h with
  | answered a _ hquiet => exact hquiet.elim nextPhase_self_of_not_legal nextPhase_self_of_query
  | ignored _ hl => exact nextPhase_self_of_not_legal hl
  | leftLength hp => exact nextPhase_self_of_not_legal (by simpa [legalIn] using hp)
  | leftBody hp => exact nextPhase_self_of_not_legal (by simpa [legalIn] using hp)
  | crcInit | crcUpdate | cfgAddr | txClear | pushed | overflowed | reset => rfl
  | startFailed _ hp _ hbad => simp [Machine.nextPhase, hp, hbad]
  | started hp hop => simp [Machine.nextPhase, hp, hop]
  | acknowledged hp => rcases hp with hp | hp <;> simp [Machine.nextPhase, hp]
  | sent _ hp | tookLength hp | tookBody hp => simp [Machine.nextPhase, hp]
  | raised hp => rcases hp with hp | hp | hp <;> simp [Machine.nextPhase, hp]
  | invalid _ hp | unknown _ hp | rejected _ _ hp | accepted _ hp => simp [Machine.nextPhase, hp]

/-- Settles O35: every effect has its row in the transition table. -/
theorem phaseTransitions : Obligations.PhaseTransitions :=
  fun _ _ _ hblock h => (effect_of_exec hblock h).nextPhase

/-! ## Refusals, answers and failures (R188, R212) -/

theorem Effect.isSome_answer {i : Instr} {s t : State} (h : Effect i s t) (hi : i.format = .host) :
    t.answer.isSome := by
  cases h with
  | ignored hevent => rw [hi] at hevent; cases hevent
  | leftLength | leftBody | sent | tookLength | tookBody | raised | invalid | unknown | accepted | rejected
  | reset => cases hi
  | _ => rfl

theorem isOperationOfBlock_of_host {i : Instr} (hi : i.format = .host) : isOperationOfBlock i = true := by
  simp [isOperationOfBlock, hi]

/-- Settles O34: the refusal by R79's table, the answer to an unassigned selector, and that every effect of a host
operation has an answer. -/
theorem refusal : Obligations.Refusal := by
  refine ⟨fun i s => exec_refused, fun w s hw m rest h hf hh => ?illegal, fun i s t hi h => ?answers⟩
  case illegal =>
    cases hd : decodeHost w with
    | ok i => exact absurd (mem_hostSelectors_of_decodeHost hd) hw
    | error e => exact step_of_illegalWord h hf hh hd
  case answers => exact (effect_of_exec (isOperationOfBlock_of_host hi) h).isSome_answer hi

/-- R212: who enters Failed, and with what. -/
theorem Effect.failure {i : Instr} {s t : State} (h : Effect i s t) (hs : s.phase ≠ .failed) (ht : t.phase = .failed) :
    ((∃ op, i = .xchgStart op) ∧ t.resClass = .program
        ∧ (t.resCause = .illegalOperation ∨ t.resCause = .payloadTooLong))
      ∨ (i = .chIoerr ∧ t.resClass = .io ∧ t.resCause = .channelError)
      ∨ (i = .validate ∧ t.resClass = .program
        ∧ (t.resCause = .badLength ∨ t.resCause = .badCrc ∨ t.resCause = .unknownStatus))
      ∨ (i = .validate ∧ t.resCause = .status
        ∧ (t.resClass = .communication ∨ t.resClass = .protocol ∨ t.resClass = .program)) := by
  cases h with
  | startFailed cause _ hc => exact .inl ⟨⟨_, rfl⟩, rfl, hc⟩
  | raised => exact .inr (.inl ⟨rfl, rfl, rfl⟩)
  | invalid cause _ hc => exact .inr (.inr (.inl ⟨rfl, rfl, hc.imp_right .inl⟩))
  | unknown => exact .inr (.inr (.inl ⟨rfl, rfl, .inr (.inr rfl)⟩))
  | rejected _ _ _ hcls => exact .inr (.inr (.inr ⟨rfl, rfl, hcls⟩))
  | started | acknowledged | accepted | reset => cases ht
  | sent | tookLength | tookBody => dsimp only at ht; split at ht <;> cases ht
  | _ => exact absurd ht hs

/-- An answer other than OK comes with no change. -/
theorem Effect.eq_of_rcode_ne_ok {i : Instr} {s t : State} {a : Answer} (h : Effect i s t) (hi : i.format = .host)
    (ha : t.answer = some a) (hne : a.rcode ≠ .ok) : t = { s with answer := some a } := by
  cases h with
  | answered b => cases ha; rfl
  | ignored hevent => rw [hi] at hevent; cases hevent
  | leftLength | leftBody | sent | tookLength | tookBody | raised | invalid | unknown | accepted | rejected
  | reset => cases hi
  | _ => cases ha; exact absurd rfl hne

/-- Settles O36. -/
theorem failuresRaisedBy : Obligations.FailuresRaisedBy :=
  ⟨fun _ _ _ hblock h => (effect_of_exec hblock h).failure,
    fun _ _ _ _ hi h => (effect_of_exec (isOperationOfBlock_of_host hi) h).eq_of_rcode_ne_ok hi,
    fun _ _ _ _ _ h hf hh he => step_of_illegalWord h hf hh he⟩

/-! ## Once an exchange has ended (R199, R220) -/

theorem Effect.stable {i : Instr} {s t : State} (h : Effect i s t) (hend : s.phase = .success ∨ s.phase = .failed)
    (hack : i ≠ .xchgAck) (hreset : i ≠ .reset) : t = { s with answer := t.answer, rxStream := t.rxStream } := by
  cases h with
  | answered | ignored | leftLength | leftBody => rfl
  | acknowledged => exact absurd rfl hack
  | reset => exact absurd rfl hreset
  | raised hp => rcases hp with hp | hp | hp <;> simp [hp] at hend
  | crcInit hp | crcUpdate hp | cfgAddr hp | txClear hp | pushed hp | overflowed hp | startFailed _ hp | started hp
  | sent _ hp | tookLength hp | tookBody hp | invalid _ hp | unknown _ hp | accepted _ hp | rejected _ _ hp =>
    simp [hp] at hend

/-- Settles O39: every other effect needs a phase before the end of the exchange. -/
theorem endedExchangeIsStable : Obligations.EndedExchangeIsStable :=
  fun _ _ _ hblock hend hack hreset h => (effect_of_exec hblock h).stable hend hack hreset

/-- Settles O38: in Failed an operation is refused, reads a register, acknowledges or resets; an event does not
happen. None looks at the received bytes. -/
theorem failedHidesResponse : Obligations.FailedHidesResponse := by
  intro i s t m hblock hp h
  cases i with
  | crcInit | crcUpdate _ | crcRead | cfgAddr _ | txClear | txPush _ | xchgStart _ | rdRxlen | rdRsp _ =>
    cases (exec_refused rfl (by simp [legalIn, hp])).symm.trans h
    exact ⟨m, exec_refused rfl (by simp [legalIn, hp])⟩
  | xchgAck =>
    cases (exec_xchgAck_done (.inr hp)).symm.trans h
    exact ⟨m, exec_xchgAck_done (.inr hp)⟩
  | rdStatus =>
    cases (exec_rdStatus_done (.inr hp)).symm.trans h
    exact ⟨m, exec_rdStatus_done (.inr hp)⟩
  | rdPhase | rdResult | rdAddr | rdTxlen => cases h; exact ⟨m, rfl⟩
  | chTxbyte =>
    cases (exec_chTxbyte_ignored (by simp [hp])).symm.trans h
    exact ⟨m, exec_chTxbyte_ignored (by simp [hp])⟩
  | chRxbyteLength b =>
    cases (exec_chRxbyteLength_left b (by simp [hp])).symm.trans h
    exact ⟨m, exec_chRxbyteLength_left b (by simp [hp])⟩
  | chRxbyteBody b =>
    cases (exec_chRxbyteBody_left b (by simp [hp])).symm.trans h
    exact ⟨m, exec_chRxbyteBody_left b (by simp [hp])⟩
  | chIoerr =>
    cases (exec_chIoerr_dropped (by simp [hp]) (by simp [hp]) (by simp [hp])).symm.trans h
    exact ⟨m, exec_chIoerr_dropped (by simp [hp]) (by simp [hp]) (by simp [hp])⟩
  | validate =>
    cases (exec_validate_ignored (by simp [hp])).symm.trans h
    exact ⟨m, exec_validate_ignored (by simp [hp])⟩
  | reset => cases h; exact ⟨[], rfl⟩
  | _ => simp [isOperationOfBlock, Instr.format] at hblock

/-! ## The writers of each element (R21 to R33, R50 to R52) -/

section
variable {i : Instr} {s t : State} (h : Effect i s t)
include h

theorem Effect.crc_writers (hreset : i ≠ .reset) (hne : t.crc ≠ s.crc) :
    i = .crcInit ∨ (∃ b, i = .crcUpdate b) ∨ (∃ op, i = .xchgStart op) ∨ i = .chTxbyte
      ∨ (∃ b, i = .chRxbyteLength b) ∨ (∃ b, i = .chRxbyteBody b) ∨ i = .xchgAck := by
  cases h with
  | reset => exact absurd rfl hreset
  | crcInit | crcUpdate | startFailed | started | sent | tookLength | tookBody | acknowledged => simp
  | _ => exact absurd rfl hne

theorem Effect.addr_writers (hreset : i ≠ .reset) (hne : t.addr ≠ s.addr) : ∃ a, i = .cfgAddr a := by
  cases h with
  | reset => exact absurd rfl hreset
  | cfgAddr => exact ⟨_, rfl⟩
  | _ => exact absurd rfl hne

theorem Effect.txop_writers (hreset : i ≠ .reset) (hne : t.txop ≠ s.txop) : ∃ op, i = .xchgStart op := by
  cases h with
  | reset => exact absurd rfl hreset
  | startFailed | started => exact ⟨_, rfl⟩
  | _ => exact absurd rfl hne

theorem Effect.txlen_writers (hreset : i ≠ .reset) (hne : t.txlen ≠ s.txlen) :
    i = .txClear ∨ (∃ b, i = .txPush b) ∨ i = .xchgAck := by
  cases h with
  | reset => exact absurd rfl hreset
  | txClear | pushed | overflowed | acknowledged => simp
  | _ => exact absurd rfl hne

theorem Effect.txidx_writers (hreset : i ≠ .reset) (hne : t.txidx ≠ s.txidx) :
    (∃ op, i = .xchgStart op) ∨ i = .chTxbyte := by
  cases h with
  | reset => exact absurd rfl hreset
  | startFailed | started | sent => simp
  | _ => exact absurd rfl hne

theorem Effect.rxlen_writers (hreset : i ≠ .reset) (hne : t.rxlen ≠ s.rxlen) : ∃ b, i = .chRxbyteLength b := by
  cases h with
  | reset => exact absurd rfl hreset
  | tookLength => exact ⟨_, rfl⟩
  | _ => exact absurd rfl hne

theorem Effect.rxcnt_writers (hreset : i ≠ .reset) (hne : t.rxcnt ≠ s.rxcnt) :
    i = .chTxbyte ∨ (∃ b, i = .chRxbyteLength b) ∨ ∃ b, i = .chRxbyteBody b := by
  cases h with
  | reset => exact absurd rfl hreset
  | sent | tookLength | tookBody => simp
  | _ => exact absurd rfl hne

theorem Effect.resStatus_writers (hreset : i ≠ .reset) (hne : t.resStatus ≠ s.resStatus) :
    i = .validate ∨ (∃ op, i = .xchgStart op) ∨ i = .xchgAck := by
  cases h with
  | reset => exact absurd rfl hreset
  | startFailed | started | acknowledged | unknown | accepted | rejected => simp
  | _ => exact absurd rfl hne

theorem Effect.txbuf_writers (hreset : i ≠ .reset) {k : Nat} (hne : t.txbuf.read k ≠ s.txbuf.read k) :
    ∃ b, i = .txPush b ∧ s.phase = .idle ∧ k = s.txlen.toNat ∧ k < 251 ∧ t.txbuf.read k = some b := by
  cases h with
  | reset => exact absurd rfl hreset
  | pushed hp hroom =>
    have hk : k = s.txlen.toNat := by_contra fun hk => hne (Memory.read_write_other _ _ hk)
    exact ⟨_, rfl, hp, hk, hk ▸ hroom, hk ▸ Memory.read_write_same _ _ _⟩
  | _ => exact absurd rfl hne

theorem Effect.rxbuf_writers (hreset : i ≠ .reset) {k : Nat} (hne : t.rxbuf.read k ≠ s.rxbuf.read k) :
    ∃ b, t.rxbuf.read k = some b
      ∧ ((i = .chRxbyteLength b ∧ s.phase = .awaitingLength ∧ k = 0)
        ∨ (i = .chRxbyteBody b ∧ s.phase = .awaitingBody ∧ k = s.rxcnt.toNat)) := by
  cases h with
  | reset => exact absurd rfl hreset
  | tookLength hp =>
    have hk : k = 0 := by_contra fun hk => hne (Memory.read_write_other _ _ hk)
    exact ⟨_, hk ▸ Memory.read_write_same _ _ _, .inl ⟨rfl, hp, hk⟩⟩
  | tookBody hp =>
    have hk : k = s.rxcnt.toNat := by_contra fun hk => hne (Memory.read_write_other _ _ hk)
    exact ⟨_, hk ▸ Memory.read_write_same _ _ _, .inr ⟨rfl, hp, hk⟩⟩
  | _ => exact absurd rfl hne

theorem Effect.txStream_writers (hreset : i ≠ .reset) (hne : t.txStream ≠ s.txStream) :
    i = .chTxbyte ∧ s.phase = .sending ∧ ∃ b, t.txStream = s.txStream ++ [b] := by
  cases h with
  | reset => exact absurd rfl hreset
  | sent b hp => exact ⟨rfl, hp, b, rfl⟩
  | _ => exact absurd rfl hne

theorem Effect.phase_writers (hreset : i ≠ .reset) (hne : t.phase ≠ s.phase) :
    (∃ op, i = .xchgStart op) ∨ i = .chTxbyte ∨ (∃ b, i = .chRxbyteLength b)
      ∨ (∃ b, i = .chRxbyteBody b) ∨ i = .chIoerr ∨ i = .validate ∨ i = .xchgAck := by
  cases h with
  | reset => exact absurd rfl hreset
  | startFailed | started | sent | tookLength | tookBody | raised | invalid | unknown | accepted | rejected
  | acknowledged => simp
  | _ => exact absurd rfl hne

theorem Effect.resClass_writers (hreset : i ≠ .reset) (hne : t.resClass ≠ s.resClass) :
    (∃ op, i = .xchgStart op) ∨ i = .chIoerr ∨ i = .validate ∨ i = .xchgAck := by
  cases h with
  | reset => exact absurd rfl hreset
  | startFailed | started | raised | invalid | unknown | rejected | acknowledged => simp
  | _ => exact absurd rfl hne

theorem Effect.resCause_writers (hreset : i ≠ .reset) (hne : t.resCause ≠ s.resCause) :
    (∃ op, i = .xchgStart op) ∨ i = .chIoerr ∨ i = .validate ∨ i = .xchgAck := by
  cases h with
  | reset => exact absurd rfl hreset
  | startFailed | started | raised | invalid | unknown | rejected | acknowledged => simp
  | _ => exact absurd rfl hne

theorem Effect.rxStream_writers (hne : t.rxStream ≠ s.rxStream) :
    ∃ b, t.rxStream = b :: s.rxStream
      ∧ ((i = .chRxbyteLength b ∧ s.phase ≠ .awaitingLength) ∨ (i = .chRxbyteBody b ∧ s.phase ≠ .awaitingBody)) := by
  cases h with
  | leftLength hp => exact ⟨_, rfl, .inl ⟨rfl, hp⟩⟩
  | leftBody hp => exact ⟨_, rfl, .inr ⟨rfl, hp⟩⟩
  | _ => exact absurd rfl hne

theorem Effect.answer_writers (hne : t.answer ≠ s.answer) : i.format = .host := by
  cases h with
  | answered _ hi => exact hi
  | crcInit | crcUpdate | cfgAddr | txClear | pushed | overflowed | startFailed | started | acknowledged => rfl
  | _ => exact absurd rfl hne

theorem Effect.unwritten :
    t.params = s.params ∧ t.chanReady = s.chanReady ∧ t.moments = s.moments ∧ t.task = s.task
      ∧ t.result = s.result := by
  cases h <;> exact ⟨rfl, rfl, rfl, rfl, rfl⟩

/-- R40 (h): an effect that leads to Idle keeps a seeded register, unless it is CRC.UPDATE's. -/
theorem Effect.crc_of_idle (ht : t.phase = .idle) (hupdate : ∀ b, i ≠ .crcUpdate b)
    (hseed : s.phase = .idle → s.crc = 0xFFFF) : t.crc = 0xFFFF := by
  cases h with
  | crcInit | acknowledged | reset => rfl
  | crcUpdate => exact absurd rfl (hupdate _)
  | startFailed | started | raised | invalid | unknown | accepted | rejected => cases ht
  | sent | tookLength | tookBody => dsimp only at ht; split at ht <;> cases ht
  | _ => exact hseed ht

/-- R40 (h): the operations that seed the register. -/
theorem Effect.crc_seeded (ht : t.phase = .idle)
    (hi : i = .reset ∨ i = .crcInit ∨ (i = .xchgAck ∧ s.phase ≠ .idle)) : t.crc = 0xFFFF := by
  cases h with
  | crcInit | acknowledged | reset => rfl
  | answered a hhost hquiet =>
    have ht' : s.phase = .idle := ht
    rcases hi with rfl | rfl | ⟨rfl, hp⟩
    · cases hhost
    · simp [legalIn, isQuery, ht'] at hquiet
    · exact absurd ht' hp
  | ignored hevent hl =>
    rcases hi with rfl | rfl | ⟨rfl, -⟩
    · cases hl
    · cases hevent
    · cases hevent
  | _ => simp at hi

end

/-- Settles O37: each element against the effects that write it. -/
theorem writersOfState : Obligations.WritersOfState := by
  refine ⟨fun i s t hblock hexec hreset => ?writers, fun i s t hblock hexec ht => ?seed⟩
  all_goals have h := effect_of_exec hblock hexec
  case writers =>
    exact ⟨h.crc_writers hreset, h.addr_writers hreset, h.txop_writers hreset, h.txlen_writers hreset,
      h.txidx_writers hreset, h.rxlen_writers hreset, h.rxcnt_writers hreset, h.resStatus_writers hreset,
      fun _ => h.txbuf_writers hreset, fun _ => h.rxbuf_writers hreset, h.txStream_writers hreset,
      h.phase_writers hreset, h.resClass_writers hreset, h.resCause_writers hreset, h.rxStream_writers,
      h.answer_writers, h.unwritten⟩
  case seed => exact ⟨h.crc_of_idle ht, h.crc_seeded ht⟩

end Sys2Proof.Machine
end

section
/-! Whole commands (41_command_codec.md R121, 45_exchange_fsm.md R172 to R175; log 8, log 19): what staging and starting
leave, what a started command sends, and what becomes of a command row and of an offered frame. -/

namespace Sys2Proof.Machine

/-! ## Staging and start -/

theorem stored_writeAll (bytes : List Byte) (m : Memory) : Stored bytes m (m.writeAll 0 bytes) := by
  intro i
  simp [Memory.read_writeAll]

section
variable {s : State} (hp : s.phase = .idle)
include hp

/-- Clearing and pushing stage what fits of the payload, and remember an overflow (R172, R173). -/
theorem exists_stage (payload : List Byte) :
    ∃ a, andThen (execTxClear s) (forEach execTxPush payload) = .next
      { s with
        txbuf := s.txbuf.writeAll 0 (payload.take 251), txlen := BitVec.ofNat 8 (min payload.length 252)
        answer := a } := by
  have hclear : execTxClear s = .next { s with txlen := 0, answer := some ⟨.ok, 0⟩ } := exec_txClear_idle hp
  rw [hclear, andThen_next]
  by_cases hfits : payload.length ≤ 251
  · rw [push_spec payload { s with txlen := 0, answer := some ⟨.ok, 0⟩ } hp rfl
      (show 0 + payload.length ≤ 251 by omega), List.take_of_length_le hfits, Nat.min_eq_left (by omega)]
    exact ⟨some ⟨.ok, 0⟩, by simp⟩
  · obtain ⟨a, ha⟩ := push_overflow payload { s with txlen := 0, answer := some ⟨.ok, 0⟩ } hp (Nat.zero_le _)
      (show 251 < 0 + payload.length by omega)
    rw [ha, Nat.min_eq_right (by omega)]
    exact ⟨a, rfl⟩

theorem beginExchange_started {op : Byte} {payload : List Byte} (hop : isOperation op = true)
    (hfits : payload.length ≤ 251) :
    beginExchange op payload s = .next (startedCommand op payload (s.txbuf.writeAll 0 payload) s) :=
  beginExchange_spec op payload s hp hop hfits

/-- The state after a start that failed at once, for the code or for the length (R174). -/
theorem beginExchange_failed {op : Byte} {payload : List Byte}
    (hbad : isOperation op = false ∨ 251 < payload.length) :
    beginExchange op payload s = .next
      { s with
        crc := crcSeed, txop := op, txlen := BitVec.ofNat 8 (min payload.length 252)
        txbuf := s.txbuf.writeAll 0 (payload.take 251), txidx := 0, phase := .failed, resClass := .program
        resCause := if isOperation op then .payloadTooLong else .illegalOperation
        resStatus := 0, answer := some ⟨.ok, 0⟩ } := by
  obtain ⟨a, hstage⟩ := exists_stage hp payload
  have hsequence : beginExchange op payload s =
      andThen (andThen (execTxClear s) (forEach execTxPush payload)) (exec (.xchgStart op)) :=
    (andThen_assoc ..).symm
  rw [hsequence, hstage, andThen_next]
  cases hop : isOperation op with
  | false => exact exec_xchgStart_of_illegal hp hop
  | true =>
    have hlong : 251 < payload.length := hbad.resolve_left (by simp [hop])
    have hover : 251 < (BitVec.ofNat 8 (min payload.length 252)).toNat := by simp; omega
    have hstart := exec_xchgStart_of_operation (op := op)
      (s := { s with
        txbuf := s.txbuf.writeAll 0 (payload.take 251), txlen := BitVec.ofNat 8 (min payload.length 252), answer := a })
      hp hop
    rw [if_pos hover] at hstart
    exact hstart

end

/-! ## Sending -/

theorem sendAll_of_not_sending (k : Nat) {s : State} (hp : s.phase ≠ .sending) : sendAll k s = .next s := by
  cases k with
  | zero => rfl
  | succ k => exact if_neg hp

/-- A started command leaves as its frame (R120, R175). -/
theorem sendAll_started {op : Byte} {payload wire : List Byte} {s : State} (m : Memory) (hfits : payload.length ≤ 251)
    (hwire : encodeFrame s.addr op payload = .ok wire) :
    sendAll sendFuel (startedCommand op payload (m.writeAll 0 payload) s)
      = .next (sentCommand op payload wire (m.writeAll 0 payload) s) := by
  have hlen : (BitVec.ofNat 8 payload.length).toNat = payload.length :=
    Nat.mod_eq_of_lt (show payload.length < 256 by omega)
  have hhead : commandHead (startedCommand op payload (m.writeAll 0 payload) s)
      = BitVec.ofNat 8 (payload.length + 4) :: s.addr :: op :: payload := by
    simp only [commandHead, startedCommand, hlen, Memory.span_writeAll]
  have hframe : BitVec.ofNat 8 (payload.length + 4) :: s.addr :: op :: payload
      ++ trailer (crc (BitVec.ofNat 8 (payload.length + 4) :: s.addr :: op :: payload)) = wire := by
    rw [encodeFrame_of_length_byte _ _ (toNat_lengthByte hfits)] at hwire
    cases hwire
    rfl
  rw [sendAll_spec sendFuel _ rfl (Nat.zero_le _) (hlen ▸ hfits) ?written rfl ?fuel, hhead]
  case written =>
    intro i hi
    have hi' : i < payload.length := hlen ▸ hi
    have hread := stored_writeAll payload m i
    rw [if_pos hi', List.getElem?_eq_getElem hi'] at hread
    exact hread ▸ rfl
  case fuel => show (BitVec.ofNat 8 payload.length).toNat + 5 ≤ 0 + 257; omega
  rw [hframe, show (startedCommand op payload (m.writeAll 0 payload) s).txlen.toNat = payload.length from hlen]
  rfl

/-! ## Whole commands -/

theorem sendCommand_refused (address op : Byte) (payload : List Byte) {s : State} (hp : s.phase ≠ .idle) :
    sendCommand address op payload s = .next { s with answer := some ⟨.refused, 0⟩ } :=
  inIdle_refused hp _

section
variable (address : Byte) {op : Byte} {payload : List Byte} {s : State} (hp : s.phase = .idle)
include hp

theorem sendCommand_idle :
    sendCommand address op payload s =
      andThen (beginExchange op payload { s with addr := address, answer := some ⟨.ok, 0⟩ }) fun s =>
        if s.chanReady then sendAll sendFuel s else .next s := by
  have haddr : execCfgAddr address s = .next { s with addr := address, answer := some ⟨.ok, 0⟩ } :=
    exec_cfgAddr_idle hp address
  rw [sendCommand, inIdle_idle hp, haddr, andThen_next]

/-- R121, R175: with a channel that takes bytes the command leaves whole. -/
theorem exists_sendCommand_sent (hc : s.chanReady = true) (hop : isOperation op = true)
    (hfits : payload.length ≤ 251) :
    ∃ wire m, encodeFrame address op payload = .ok wire ∧ Stored payload s.txbuf m
      ∧ sendCommand address op payload s = .next (sentCommand op payload wire m { s with addr := address }) := by
  obtain ⟨wire, hwire⟩ := exists_encodeFrame address op hfits
  refine ⟨wire, _, hwire, stored_writeAll payload s.txbuf, ?_⟩
  have hstart := beginExchange_started (s := { s with addr := address, answer := some ⟨.ok, 0⟩ }) hp hop hfits
  rw [sendCommand_idle address hp, hstart, andThen_next]
  exact (if_pos hc).trans (sendAll_started (s := { s with addr := address }) s.txbuf hfits hwire)

/-- A channel that takes no byte leaves the command staged and started. -/
theorem exists_sendCommand_started (hc : s.chanReady = false) (hop : isOperation op = true)
    (hfits : payload.length ≤ 251) :
    ∃ m, Stored payload s.txbuf m
      ∧ sendCommand address op payload s = .next (startedCommand op payload m { s with addr := address }) := by
  refine ⟨_, stored_writeAll payload s.txbuf, ?_⟩
  have hstart := beginExchange_started (s := { s with addr := address, answer := some ⟨.ok, 0⟩ }) hp hop hfits
  rw [sendCommand_idle address hp, hstart, andThen_next]
  exact if_neg (Bool.eq_false_iff.mp hc)

/-- A start that fails ends the command before a byte leaves (R174). -/
theorem sendCommand_failed (hbad : isOperation op = false ∨ 251 < payload.length) :
    sendCommand address op payload s = .next
      { s with
        addr := address, crc := crcSeed, txop := op, txlen := BitVec.ofNat 8 (min payload.length 252)
        txbuf := s.txbuf.writeAll 0 (payload.take 251), txidx := 0, phase := .failed, resClass := .program
        resCause := if isOperation op then .payloadTooLong else .illegalOperation
        resStatus := 0, answer := some ⟨.ok, 0⟩ } := by
  have hstart := beginExchange_failed (s := { s with addr := address, answer := some ⟨.ok, 0⟩ }) hp hbad
  rw [sendCommand_idle address hp, hstart, andThen_next, sendAll_of_not_sending _ (by simp), ite_self]

theorem exists_sendCommand_overflowed (hop : isOperation op = true) (hlong : 251 < payload.length) :
    ∃ m, Stored (payload.take 251) s.txbuf m
      ∧ sendCommand address op payload s = .next (overflowedCommand op m { s with addr := address }) := by
  refine ⟨_, stored_writeAll (payload.take 251) s.txbuf, ?_⟩
  rw [sendCommand_failed address hp (.inr hlong), hop, Nat.min_eq_right (by omega)]
  rfl

end

/-! ## The command rows -/

section
variable (address : Byte) {s : State} {built : List Byte}

theorem exec_cmdReadData_of_built {c : ReadCommand} (h : buildRead s.params c = .ok built) :
    exec (.cmdReadData address c) s = sendCommand address 0x02 built s := by
  show sendBuilt address opReadData (buildRead s.params c) s = _
  rw [h]
  rfl

theorem exec_cmdWriteData_of_built {c : WriteCommand} (h : buildWrite s.params c = .ok built) :
    exec (.cmdWriteData address c) s = sendCommand address 0x03 built s := by
  show sendBuilt address opWriteData (buildWrite s.params c) s = _
  rw [h]
  rfl

theorem exec_cmdKillTag_of_built {c : KillCommand} (h : buildKill c = .ok built) :
    exec (.cmdKillTag address c) s = sendCommand address 0x05 built s := by
  show sendBuilt address opKillTag (buildKill c) s = _
  rw [h]
  rfl

/-- A record its builder rejects is reported to the caller (R130). -/
theorem sendBuilt_of_error {op : Byte} {built : Except Failure (List Byte)} {e : Failure} (h : built = .error e) :
    sendBuilt address op built s = .next { s with result := some (.error e.cls e.cause none) } := by
  rw [h]
  rfl

end

/-! ## Offered frames -/

/-- A frame that passes `check_frame` is the frame of its fields (R120, R150). -/
theorem encodeFrame_of_checkFrame {bytes : List Byte} {f : Frame} (h : checkFrame bytes = .ok f) :
    encodeFrame f.address f.code f.body = .ok bytes := by
  rw [checkFrame_eq_afterFrameTests, afterFrameTests_eq_ok_iff] at h
  obtain ⟨⟨hcount, hlong, htrailer⟩, hfields⟩ := h
  cases hfields
  match bytes, hcount, hlong, htrailer with
  | [], _, hlong, _ | [_], _, hlong, _ | [_, _], _, hlong, _ => simp at hlong
  | n :: a :: c :: rest, hcount, hlong, htrailer =>
    have hrest : 2 ≤ rest.length := by simp at hlong; omega
    have hbody : ((n :: a :: c :: rest).drop 3).take ((n :: a :: c :: rest).length - 2 - 3)
        = rest.take (rest.length - 2) := rfl
    have hhead : (n :: a :: c :: rest).take ((n :: a :: c :: rest).length - 2)
        = [n, a, c] ++ rest.take (rest.length - 2) := by
      rw [show (n :: a :: c :: rest).length - 2 = (rest.length - 2) + 3 by simp; omega]
      rfl
    have hn : n.toNat = (rest.take (rest.length - 2)).length + 4 := by simp at hcount ⊢; omega
    rw [hbody]
    refine (encodeFrame_of_length_byte a c hn).trans (congrArg _ ?_)
    rw [← hhead, trailerOk_iff.mp htrailer, trailer, lo8_le16, hi8_le16]
    exact take_append_last_two (by simp)

/-- A checked frame has room for its length byte (R122). -/
theorem length_body_of_checkFrame {bytes : List Byte} {f : Frame} (h : checkFrame bytes = .ok f) :
    f.body.length ≤ 251 := by
  by_contra hlong
  have hframe := encodeFrame_of_checkFrame h
  rw [encodeFrame_of_too_long _ _ (Nat.not_le.mp hlong)] at hframe
  cases hframe

/-! ## The obligations -/

/-- Settles O40: each row and each offered frame is a command whose payload fits. -/
theorem commandSentWhole : Obligations.CommandSentWhole := by
  refine ⟨fun address s hp hc => ⟨?inventory, ?information, fun c payload hb hl => ?read, fun c payload hb hl => ?write,
    fun c payload hb hl => ?kill⟩, fun s m rest bytes f h hf hh hcheck hp hc hcode => ?offered⟩
  case inventory => exact exists_sendCommand_sent address hp hc (op := 0x01) rfl (Nat.zero_le _)
  case information => exact exists_sendCommand_sent address hp hc (op := 0x21) rfl (Nat.zero_le _)
  case read => rw [exec_cmdReadData_of_built address hb]; exact exists_sendCommand_sent address hp hc rfl hl
  case write => rw [exec_cmdWriteData_of_built address hb]; exact exists_sendCommand_sent address hp hc rfl hl
  case kill => rw [exec_cmdKillTag_of_built address hb]; exact exists_sendCommand_sent address hp hc rfl hl
  case offered =>
    obtain ⟨wire, tx, hwire, hstored, hsent⟩ := exists_sendCommand_sent f.address (s := arrived s m rest) hp hc
      (isOperation_iff.mpr hcode) (length_body_of_checkFrame hcheck)
    cases (encodeFrame_of_checkFrame hcheck).symm.trans hwire
    exact ⟨tx, hstored, (step_of_commandFrame h hf hh (commandFrame_of_checkFrame hcheck)).trans hsent⟩

/-- Settles O41: the ways in which a command ends before a byte leaves. -/
theorem commandNotSent : Obligations.CommandNotSent := by
  refine ⟨fun address c e s => sendBuilt_of_error address, fun address c e s => sendBuilt_of_error address,
    fun address c e s => sendBuilt_of_error address, fun address s hp => ?refused, fun address s hp => ?overflowed,
    fun address s hp hc => ?notTaken, fun s m rest bytes h hf hh => ⟨fun f hcheck => ⟨fun hp => ?frameRefused,
      fun hp hcode => ?frameIllegal⟩, fun e herror h3 h4 => ?noFrame⟩⟩
  case refused =>
    refine ⟨sendCommand_refused _ _ _ hp, sendCommand_refused _ _ _ hp, fun c payload hb => ?_, fun c payload hb => ?_,
      fun c payload hb => ?_⟩
    · rw [exec_cmdReadData_of_built address hb, sendCommand_refused _ _ _ hp]
    · rw [exec_cmdWriteData_of_built address hb, sendCommand_refused _ _ _ hp]
    · rw [exec_cmdKillTag_of_built address hb, sendCommand_refused _ _ _ hp]
  case overflowed =>
    refine ⟨fun c payload hb hlong => ?_, fun c payload hb hlong => ?_, fun c payload hb hlong => ?_⟩
    · rw [exec_cmdReadData_of_built address hb]; exact exists_sendCommand_overflowed address hp rfl hlong
    · rw [exec_cmdWriteData_of_built address hb]; exact exists_sendCommand_overflowed address hp rfl hlong
    · rw [exec_cmdKillTag_of_built address hb]; exact exists_sendCommand_overflowed address hp rfl hlong
  case notTaken =>
    refine ⟨exists_sendCommand_started address hp hc (op := 0x01) rfl (Nat.zero_le _),
      exists_sendCommand_started address hp hc (op := 0x21) rfl (Nat.zero_le _), fun c payload hb hl => ?_,
      fun c payload hb hl => ?_, fun c payload hb hl => ?_⟩
    · rw [exec_cmdReadData_of_built address hb]; exact exists_sendCommand_started address hp hc rfl hl
    · rw [exec_cmdWriteData_of_built address hb]; exact exists_sendCommand_started address hp hc rfl hl
    · rw [exec_cmdKillTag_of_built address hb]; exact exists_sendCommand_started address hp hc rfl hl
  case frameRefused =>
    rw [step_of_commandFrame h hf hh (commandFrame_of_checkFrame hcheck)]
    exact sendCommand_refused _ _ _ hp
  case frameIllegal =>
    have hop : isOperation f.code = false := Bool.eq_false_iff.mpr (mt isOperation_iff.mp hcode)
    have hlen := length_body_of_checkFrame hcheck
    have hfailed := sendCommand_failed f.address (s := arrived s m rest) hp (payload := f.body) (.inl hop)
    rw [hop, List.take_of_length_le hlen, Nat.min_eq_left (by omega)] at hfailed
    refine ⟨_, stored_writeAll f.body s.txbuf, ?_⟩
    rw [step_of_commandFrame h hf hh (commandFrame_of_checkFrame hcheck)]
    exact hfailed
  case noFrame =>
    exact step_of_no_commandFrame h hf hh ((commandFrame_eq_checkFrame h3 h4).trans herror)

end Sys2Proof.Machine
end

section
/-! Whole responses (30_encoding.md R72, R77, 45_exchange_fsm.md R176, R177, R179; log 10): the rows as deliveries, what the
block takes of the bytes in the channel, and how a row's status ends the exchange. -/

namespace Sys2Proof.Machine

/-! ## Taking bytes from the channel -/

theorem Framed.exists_cons {frame : List Byte} (h : Framed frame) :
    ∃ len body, frame = len :: body ∧ body.length = len.toNat := by
  cases frame with
  | nil => cases h
  | cons len body => exact ⟨len, body, rfl, Nat.succ.inj h⟩

/-- A whole frame is taken from AwaitingLength on, and judged (R176, R177, R179). -/
theorem receive_framed {frame more : List Byte} {s : State} (hp : s.phase = .awaitingLength) (hc : s.crc = crcSeed)
    (hframed : Framed frame) (hstream : s.rxStream = frame ++ more) :
    receive s = .next (judgedBy frame
      (takenResponse frame (s.rxbuf.writeAll 0 frame) { s with rxStream := more })) := by
  obtain ⟨len, body, rfl, hlen⟩ := hframed.exists_cons
  have htaken : takeAll s.rxStream s = .next
      (takenResponse (len :: body) (s.rxbuf.writeAll 0 (len :: body)) { s with rxStream := more }) := by
    rw [hstream, takeAll_spec len body more s hp hc hlen, takenResponse,
      show (len :: body).length - 2 = len.toNat - 1 by simp [hlen],
      show (len :: body).length = len.toNat + 1 by simp [hlen]]
    rfl
  rw [receive, htaken, andThen_next]
  refine execValidate_spec (len :: body) _ rfl ?_ (fun i hi => ?_) rfl rfl
  · show body.length + 1 = len.toNat + 1
    rw [hlen]
  · exact (stored_writeAll (len :: body) s.rxbuf i).trans (if_pos hi)

/-- The CRC over a beginning of a frame, its length byte first (R176, R177): the trailer never enters it. -/
theorem crcFrom_length_body {len : Byte} {body : List Byte} (h : body.length + 1 ≤ len.toNat) :
    crcFrom (if 2 ≤ len.toNat then crcByte crcSeed len else crcSeed) (body.take (len.toNat - 1 - 1))
      = crc ((len :: body).take (len.toNat - 1)) := by
  by_cases hlen : 2 ≤ len.toNat
  · rw [if_pos hlen, List.take_cons (show 0 < len.toNat - 1 by omega), crc, crcFrom_cons]
  · have hnone : len.toNat - 1 = 0 := by omega
    rw [if_neg hlen, hnone]
    rfl

/-- A beginning of a frame is taken, and the block waits for the rest (R176, R177). -/
theorem receive_part {part : List Byte} {s : State} (hp : s.phase = .awaitingLength) (hc : s.crc = crcSeed)
    (hne : part ≠ []) (hlen : part.length ≤ (part.getD 0 0).toNat) (hstream : s.rxStream = part) :
    receive s = .next (begunResponse part (s.rxbuf.writeAll 0 part) s) := by
  obtain ⟨len, body, rfl⟩ := List.exists_cons_of_ne_nil hne
  have hshort : body.length + 1 ≤ len.toNat := hlen
  have hzero : len ≠ 0 := by rintro rfl; cases hshort
  have hlength : execChRxbyteLength len s = _ := exec_chRxbyteLength_awaiting len hp
  rw [receive, hstream, takeAll, hp]
  dsimp only
  rw [hlength, andThen_next, if_neg hzero, takeBody_part body _ rfl
    (by show 1 + body.length ≤ len.toNat; omega), andThen_next]
  refine (exec_validate_ignored (by simp)).trans (congrArg Host.Outcome.next ?_)
  rw [begunResponse, List.getD_cons_zero, ← crcFrom_length_body hshort, ← hc, List.length_cons, Nat.add_comm body.length]
  rfl

/-- In a phase that takes no byte the channel keeps what it holds (R53). -/
theorem takeAll_of_not_receiving (bytes : List Byte) {s : State} (hl : s.phase ≠ .awaitingLength)
    (hb : s.phase ≠ .awaitingBody) : takeAll bytes s = .next { s with rxStream := bytes } := by
  cases bytes with
  | nil => rfl
  | cons b bytes =>
    rw [takeAll]
    split
    next hp => exact absurd hp hl
    next hp => exact absurd hp hb
    next => rfl

theorem receive_of_not_receiving {s : State} (hl : s.phase ≠ .awaitingLength) (hb : s.phase ≠ .awaitingBody) :
    receive s = exec .validate s := by
  rw [receive, takeAll_of_not_receiving _ hl hb]
  rfl

/-- What is missing of a response is taken, and VALIDATE follows (R177, R179). -/
theorem receive_rest {bytes more : List Byte} {s : State} (hp : s.phase = .awaitingBody)
    (hle : s.rxcnt.toNat ≤ s.rxlen.toNat) (hlen : s.rxcnt.toNat + bytes.length = s.rxlen.toNat + 1)
    (hstream : s.rxStream = bytes ++ more) :
    receive s = exec .validate (continuedResponse bytes more (s.rxbuf.writeAll s.rxcnt.toNat bytes) s) := by
  rw [receive, hstream, takeBody_spec bytes more s hp (by omega) hlen, andThen_next, continuedResponse, if_pos hlen, hlen]
  rfl

/-- Some of what is missing of a response is taken, and the block goes on waiting (R177). -/
theorem receive_some {bytes : List Byte} {s : State} (hp : s.phase = .awaitingBody)
    (hlen : s.rxcnt.toNat + bytes.length ≤ s.rxlen.toNat) (hstream : s.rxStream = bytes) :
    receive s = .next (continuedResponse bytes [] (s.rxbuf.writeAll s.rxcnt.toNat bytes) s) := by
  rw [receive, hstream, takeBody_part bytes s hp hlen, andThen_next, continuedResponse,
    if_neg (show ¬ s.rxcnt.toNat + bytes.length = s.rxlen.toNat + 1 by omega), ← hp]
  exact exec_validate_ignored (by simp [hp])

/-! ## The rows as deliveries -/

/-- Each row delivers the frame with its status byte (R77). -/
theorem exec_rsp {i : Instr} {wire : List Byte} {s : State} (hi : i.format = .rsp)
    (hwire : encode s.params i = some wire) : exec i s = receive { s with rxStream := s.rxStream ++ wire } := by
  cases i with
  | statusOk | statusReturnBeforeInventoryFinished | statusScanTimeOverflow | statusMoreData
  | statusAccessPasswordError | statusKillTagError | statusKillPasswordZero | statusCommandNotSupported
  | statusPoorCommunication | statusNoTags | statusWrongLength | statusIllegalCommand | statusParameterError
  | statusOther10 | statusOther11 | statusOther12 | statusOtherF9 | statusUnknown => cases hwire; rfl
  | _ => cases hi

/-- The rows by name, each with its status byte (R77). -/
theorem encode_of_row {p : Params} {f : RspFrame} {i : Instr} {b : Byte}
    (h : (i, b) ∈
        [(Instr.statusOk f, (0x00 : Byte)), (.statusReturnBeforeInventoryFinished f, p.returnBeforeInventoryFinished),
         (.statusScanTimeOverflow f, p.scanTimeOverflow), (.statusMoreData f, p.moreData),
         (.statusAccessPasswordError f, p.accessPasswordError), (.statusKillTagError f, p.killTagError),
         (.statusKillPasswordZero f, p.killPasswordZero), (.statusCommandNotSupported f, p.commandNotSupported),
         (.statusPoorCommunication f, p.poorCommunication), (.statusNoTags f, 0xFB),
         (.statusWrongLength f, p.wrongLength), (.statusIllegalCommand f, p.illegalCommand),
         (.statusParameterError f, p.parameterError), (.statusOther10 f, 0x10),
         (.statusOther11 f, 0x11), (.statusOther12 f, 0x12), (.statusOtherF9 f, 0xF9)]
        ∨ i = .statusUnknown b f) : i.format = .rsp ∧ encode p i = some (rspBytes b f) := by
  obtain hrow | rfl := h
  · simp only [List.mem_cons, List.not_mem_nil, or_false, Prod.mk.injEq] at hrow
    rcases hrow with h | h | h | h | h | h | h | h | h | h | h | h | h | h | h | h | h <;>
      (obtain ⟨rfl, rfl⟩ := h; exact ⟨rfl, rfl⟩)
  · exact ⟨rfl, rfl⟩

/-- Settles O42: the row adds its frame to the channel, and the four clauses are the four ways of taking what stands there. -/
theorem responseTakenAndJudged : Obligations.ResponseTakenAndJudged := by
  intro f s i b hrow wire hwire
  obtain ⟨hformat, hencode⟩ := encode_of_row hrow
  have hexec := exec_rsp hformat (hencode.trans (congrArg some hwire.symm))
  have hne : s.rxStream ++ wire ≠ [] := by simp [hwire]
  rw [hexec]
  refine ⟨fun hp hc => ⟨fun frame more hframed hstream => ?whole, ?part⟩,
    fun hp hle => ⟨fun bytes more hlen hstream => ?rest, ?some⟩⟩
  case whole => exact ⟨_, stored_writeAll frame _,
      receive_framed (s := { s with rxStream := _ }) hp hc hframed hstream⟩
  case part =>
    rintro part rfl hlen
    exact ⟨_, stored_writeAll _ _, receive_part (s := { s with rxStream := _ }) hp hc hne hlen rfl⟩
  case rest =>
    exact ⟨_, Memory.read_writeAll bytes _ _, receive_rest (s := { s with rxStream := _ }) hp hle hlen hstream⟩
  case some =>
    rintro bytes hlen rfl
    exact ⟨_, Memory.read_writeAll _ _ _, receive_some (s := { s with rxStream := _ }) hp hlen rfl⟩

/-- Settles O44: in these phases the channel keeps what it holds, and VALIDATE is passed over but in Validating. -/
theorem responseNotAwaitedStays : Obligations.ResponseNotAwaitedStays := by
  intro i wire s hformat hencode
  have hreceive (hl : s.phase ≠ .awaitingLength) (hb : s.phase ≠ .awaitingBody) :
      exec i s = exec .validate { s with rxStream := s.rxStream ++ wire } :=
    (exec_rsp hformat hencode).trans (receive_of_not_receiving hl hb)
  refine ⟨fun hp => ?_, fun hp => hreceive (by simp [hp]) (by simp [hp])⟩
  have hnot (q : Phase) (hq : q ≠ .idle ∧ q ≠ .sending ∧ q ≠ .success ∧ q ≠ .failed) : s.phase ≠ q := by
    rintro rfl
    simp [hq] at hp
  rw [hreceive (hnot _ (by decide)) (hnot _ (by decide))]
  exact exec_validate_ignored (hnot _ (by decide))

/-! ## How a row ends the exchange (R77, R162, R164) -/

/-- A good frame is judged by its status byte alone. -/
theorem judgedBy_rspBytes {f : RspFrame} {b : Byte} {s : State} (hlen : f.length.toNat = f.rest.length + 3)
    (hrest : 2 ≤ f.rest.length) (htrailer : trailerOk (rspBytes b f) = true) :
    judgedBy (rspBytes b f) s
      = (statusDecode s.params b).elim (raiseFail .program .unknownStatus { s with resStatus := b })
          fun st => judgeStatus st { s with resStatus := b } := by
  have hlength : (rspBytes b f).length = f.rest.length + 4 := rfl
  have hcount : ((rspBytes b f).getD 0 0).toNat + 1 = (rspBytes b f).length :=
    hlength ▸ congrArg (· + 1) hlen
  rw [judgedBy, decodeResponse_eq_afterFrameTests, afterFrameTests_of_counts hcount (by omega), if_pos htrailer]
  have hstatus : (rspBytes b f).getD 3 0 = b := rfl
  rw [hstatus]
  cases statusDecode s.params b <;> rfl

section
variable {f : RspFrame} {s : State} {i : Instr} {b : Byte}

/-- The delivered frame is taken and judged by its status byte (R176, R177, R179). -/
theorem exec_rsp_of_good (hp : s.phase = .awaitingLength) (hc : s.crc = crcSeed) (hstream : s.rxStream = [])
    (hlen : f.length.toNat = f.rest.length + 3) (hrest : 2 ≤ f.rest.length) (hformat : i.format = .rsp)
    (hencode : encode s.params i = some (rspBytes b f)) (htrailer : trailerOk (rspBytes b f) = true) :
    ∃ taken : State, taken.txop = s.txop ∧ exec i s = .next
      ((statusDecode s.params b).elim (raiseFail .program .unknownStatus { taken with resStatus := b })
          fun st => judgeStatus st { taken with resStatus := b }) := by
  have hframed : Framed (rspBytes b f) := show f.rest.length + 4 = f.length.toNat + 1 by omega
  refine ⟨takenResponse (rspBytes b f) (s.rxbuf.writeAll 0 (rspBytes b f)) { s with rxStream := [] }, rfl, ?_⟩
  have hwhole := receive_framed (s := { s with rxStream := s.rxStream ++ rspBytes b f }) (more := []) hp hc hframed
    (by simp [hstream])
  rw [exec_rsp hformat hencode, hwhole, judgedBy_rspBytes hlen hrest htrailer]
  rfl

end

/-- In an admissible table the byte of a named row decodes to its status (R77). -/
theorem statusDecode_of_rspRow {p : Params} (hp : p.wf = true) {n : StatusName} {f : RspFrame} {b : Byte}
    (h : encode p (rspRow n f) = some (rspBytes b f)) : statusDecode p b = some (.named n) := by
  have hcode : encode p (rspRow n f) = some (rspBytes (p.statusCode n) f) := by cases n <;> rfl
  have hb : p.statusCode n = b := by
    simpa [rspBytes] using Option.some.inj (hcode.symm.trans h)
  exact hb ▸ statusDecode_statusCode hp n

/-- Settles O43: the row's status byte decodes to the row's status, whose class is that of R162. -/
theorem responseRowsEndAs : Obligations.ResponseRowsEndAs := by
  intro f s hp hc hstream hwf hlen hrest i b hencode htrailer
  have hjudged := fun hformat => exec_rsp_of_good hp hc hstream hlen hrest (i := i) hformat hencode htrailer
  have haccepted (hformat : i.format = .rsp) {st : Status} (hst : statusDecode s.params b = some st)
      (hok : classify st = .success ∨ (st = .named .noTags ∧ s.txop = 0x01)) :
      ∃ t, exec i s = .next t ∧ t.phase = .success ∧ t.resStatus = b := by
    obtain ⟨taken, htxop, hexec⟩ := hjudged hformat
    rw [hst] at hexec
    exact ⟨_, hexec.trans (congrArg Host.Outcome.next (judgeStatus_of_accepted (htxop ▸ hok))), rfl, rfl⟩
  have hrejected (hformat : i.format = .rsp) {st : Status} (hst : statusDecode s.params b = some st)
      (hcls : classify st ≠ .success) (hno : ¬(st = .named .noTags ∧ s.txop = 0x01)) :
      ∃ t, exec i s = .next t ∧ t.phase = .failed ∧ t.resClass = (classify st).resClass ∧ t.resCause = .status
        ∧ t.resStatus = b := by
    obtain ⟨taken, htxop, hexec⟩ := hjudged hformat
    rw [hst] at hexec
    exact ⟨_, hexec.trans (congrArg Host.Outcome.next (judgeStatus_of_rejected hcls (htxop ▸ hno))), rfl, rfl, rfl, rfl⟩
  have hnamed (n : StatusName) (hi : i = rspRow n f) : statusDecode s.params b = some (.named n) :=
    statusDecode_of_rspRow hwf (hi ▸ hencode)
  refine ⟨?success, ?noTags, ?communication, ?protocol, ?program, ?other, ?unknown⟩
  case success =>
    intro hi
    simp only [List.mem_cons, List.not_mem_nil, or_false] at hi
    rcases hi with hi | hi | hi | hi
    · exact haccepted (by rw [hi]; rfl) (hnamed .ok hi) (.inl rfl)
    · exact haccepted (by rw [hi]; rfl) (hnamed .returnBeforeInventoryFinished hi) (.inl rfl)
    · exact haccepted (by rw [hi]; rfl) (hnamed .scanTimeOverflow hi) (.inl rfl)
    · exact haccepted (by rw [hi]; rfl) (hnamed .moreData hi) (.inl rfl)
  case noTags =>
    intro hi hop
    exact haccepted (by rw [hi]; rfl) (hnamed .noTags hi) (.inr ⟨rfl, hop⟩)
  case communication =>
    rintro (hi | ⟨hi, hop⟩)
    · exact hrejected (by rw [hi]; rfl) (hnamed .poorCommunication hi) (by decide) nofun
    · exact hrejected (by rw [hi]; rfl) (hnamed .noTags hi) (by decide) fun h => hop h.2
  case protocol =>
    intro hi
    simp only [List.mem_cons, List.not_mem_nil, or_false] at hi
    rcases hi with hi | hi | hi | hi
    · exact hrejected (by rw [hi]; rfl) (hnamed .accessPasswordError hi) (by decide) nofun
    · exact hrejected (by rw [hi]; rfl) (hnamed .killTagError hi) (by decide) nofun
    · exact hrejected (by rw [hi]; rfl) (hnamed .killPasswordZero hi) (by decide) nofun
    · exact hrejected (by rw [hi]; rfl) (hnamed .commandNotSupported hi) (by decide) nofun
  case program =>
    intro hi
    simp only [List.mem_cons, List.not_mem_nil, or_false] at hi
    rcases hi with hi | hi | hi
    · exact hrejected (by rw [hi]; rfl) (hnamed .wrongLength hi) (by decide) nofun
    · exact hrejected (by rw [hi]; rfl) (hnamed .illegalCommand hi) (by decide) nofun
    · exact hrejected (by rw [hi]; rfl) (hnamed .parameterError hi) (by decide) nofun
  case other =>
    intro hi hmem
    have hst : statusDecode s.params b = some (.other b) := (statusDecode_eq_other_iff hwf).mpr ⟨rfl, hmem⟩
    have hformat : i.format = .rsp := by
      simp only [List.mem_cons, List.not_mem_nil, or_false] at hi
      rcases hi with rfl | rfl | rfl | rfl <;> rfl
    exact hrejected hformat hst nofun nofun
  case unknown =>
    intro hi hnone
    obtain ⟨taken, -, hexec⟩ := hjudged (by rw [hi]; rfl)
    rw [hnone] at hexec
    exact ⟨_, hexec, rfl, rfl, rfl, rfl⟩

end Sys2Proof.Machine
end

section
/-! The pseudo-operations (45_exchange_fsm.md R192 to R197; log 13): what the read-out gives the host, and the exchange as the
start of a command, the events of the channel meanwhile, and the read-out. -/

namespace Sys2Proof.Machine

/-! ## The read-out -/

/-- The state after the acknowledgement that ends a pseudo-operation, with what its caller gets (R180, R192). -/
def endedTask (result : HostResult) (s : State) : State :=
  { respond .ok 0 (acknowledge s) with task := none, result := some result }

/-- A failed exchange gives class, cause and status byte (R182, R183, R192). -/
theorem settle_of_failed (task : Task) {s : State} (h : s.phase = .failed) :
    settle task s = .next (endedTask (.error s.resClass s.resCause (some s.resStatus)) s) := by
  have hstatus (t : State) (ht : t.phase = .failed) :
      execRdStatus t = .next { t with answer := some ⟨.ok, t.resStatus.setWidth 16⟩ } := exec_rdStatus_done (.inr ht)
  have hack (t : State) (ht : t.phase = .failed) : execXchgAck t = .next (respond .ok 0 (acknowledge t)) :=
    exec_xchgAck_done (.inr ht)
  have hsettle : settle task s = readOutFailed { s with task := none } := by rw [settle, h]
  rw [hsettle, readOutFailed, execRdResult, andThen_next, hstatus, andThen_next, hack, andThen_next]
  case ht | ht => exact h
  exact congrArg (fun b => Host.Outcome.next (endedTask (.error s.resClass s.resCause (some b)) s))
    (lo8_setWidth s.resStatus)

/-- A successful one gives what its pseudo-operation makes of status byte and payload (R183, R185, R187, R192). -/
theorem settle_of_success (task : Task) {s : State} {payload : List Byte} (h : s.phase = .success)
    (hlen : payload.length + 5 = s.rxlen.toNat)
    (hread : ∀ j, j < payload.length → s.rxbuf.read (4 + j) = payload[j]?) :
    settle task s = .next (endedTask (resultOf task s.params s.resStatus payload) s) := by
  have hstatus (t : State) (ht : t.phase = .success) :
      execRdStatus t = .next { t with answer := some ⟨.ok, t.resStatus.setWidth 16⟩ } := exec_rdStatus_done (.inl ht)
  have hrxlen (t : State) (ht : t.phase = .success) :
      execRdRxlen t = .next { t with answer := some ⟨.ok, t.rxlen.setWidth 16⟩ } := exec_rdRxlen_success ht
  have hack (t : State) (ht : t.phase = .success) : execXchgAck t = .next (respond .ok 0 (acknowledge t)) :=
    exec_xchgAck_done (.inl ht)
  have hcount : (s.rxlen.setWidth 16).toNat - 5 = payload.length := by
    rw [toNat_setWidth_byte, ← hlen, Nat.add_sub_cancel]
  have hsettle : settle task s = readOutSuccess task { s with task := none } := by rw [settle, h]
  rw [hsettle, readOutSuccess, hstatus, andThen_next, hrxlen, andThen_next]
  case ht | ht => exact h
  dsimp only [answered]
  rw [hcount]
  obtain ⟨a, hbytes⟩ := readBytes_spec payload 4 []
    { s with task := none, answer := some ⟨.ok, s.rxlen.setWidth 16⟩ } _ h (by show _ ≤ s.rxlen.toNat; omega) hread
  refine hbytes.trans ?_
  rw [hack, andThen_next, List.nil_append, lo8_setWidth]
  case ht => exact h
  rfl

/-! ## From a received frame to the result -/

/-- The payload of a decoded response stands behind its header of four bytes and before its trailer (R151). -/
theorem payload_of_decodeResponse {p : Params} {frame : List Byte} {r : Response} (h : decodeResponse p frame = .ok r) :
    r.payload.length + 6 = frame.length ∧ ∀ j, j < r.payload.length → r.payload[j]? = frame[4 + j]? := by
  rw [decodeResponse_eq_afterFrameTests, afterFrameTests_eq_ok_iff] at h
  obtain ⟨⟨-, hlong, -⟩, hanswer⟩ := h
  have hpayload : r.payload = (frame.drop 4).take (frame.length - 2 - 4) := by
    cases hst : statusDecode p (frame.getD 3 0) <;> rw [hst] at hanswer <;> cases hanswer
    rfl
  have hlength : r.payload.length = frame.length - 6 := by
    rw [hpayload, List.length_take, List.length_drop]
    omega
  refine ⟨by omega, fun j hj => ?_⟩
  rw [hpayload, List.getElem?_take_of_lt (by omega), List.getElem?_drop]

/-- The read-out of a judged frame is what the functions make of it (R179, R192). -/
theorem settle_judgedBy (task : Task) {frame : List Byte} {old : Memory} {s : State} (hframed : Framed frame)
    (hlen : s.rxlen = frame.getD 0 0) (hstored : Stored frame old s.rxbuf) (hstatus : s.resStatus = 0) :
    settle task (judgedBy frame s)
      = .next (endedTask (exchangeResult (resultOf task s.params) s.params s.txop frame) s) := by
  cases hdecode : decodeResponse s.params frame with
  | error e =>
    rw [judgedBy, exchangeResult, hdecode]
    refine (settle_of_failed task rfl).trans ?_
    by_cases hunknown : e.cause = .unknownStatus
    · simp only [hunknown, if_true]
      rfl
    · simp only [hunknown, if_false, raiseFail, hstatus]
      rfl
  | ok r =>
    obtain ⟨hlength, hpayload⟩ := payload_of_decodeResponse hdecode
    rw [judgedBy, exchangeResult, hdecode]
    dsimp only
    by_cases haccepted : successful r.status = true ∨ (r.status = .named .noTags ∧ s.txop = opInventory)
    · rw [judgeStatus_of_accepted (s := { s with resStatus := frame.getD 3 0 }) (haccepted.imp_left successful_iff.mp),
        if_pos haccepted]
      refine settle_of_success task rfl ?count fun j hj => ?byte
      case count =>
        have hcounts : frame.length = s.rxlen.toNat + 1 := hlen ▸ hframed
        show r.payload.length + 5 = s.rxlen.toNat
        omega
      case byte =>
        rw [hpayload j hj]
        exact (hstored (4 + j)).trans (if_pos (by omega))
    · obtain ⟨hcls, hno⟩ := not_or.mp haccepted
      rw [judgeStatus_of_rejected (s := { s with resStatus := frame.getD 3 0 }) (mt successful_iff.mpr hcls) hno,
        if_neg haccepted]
      exact settle_of_failed task rfl

/-! ## The exchange -/

section
variable {op : Byte} {payload : List Byte} {s : State} (task : Task) (hp : s.phase = .idle)
include hp

/-- With a ready channel that holds the response the exchange goes from Idle to Idle (R192). -/
theorem exchange_framed {wire frame more : List Byte} (hready : s.chanReady = true) (hop : isOperation op = true)
    (hfits : payload.length ≤ 251) (hframed : Framed frame) (hstream : s.rxStream = frame ++ more)
    (hwire : encodeFrame s.addr op payload = .ok wire) :
    exchange task op payload s = .next
      (endedExchange op wire frame more (s.txbuf.writeAll 0 payload) (s.rxbuf.writeAll 0 frame)
        (exchangeResult (resultOf task s.params) s.params op frame) s) := by
  have hlength : wire.length = payload.length + 5 := by
    rw [encodeFrame_of_length_byte _ _ (toNat_lengthByte hfits)] at hwire
    cases hwire
    simp [trailer]
  have hmeanwhile : meanwhile (startedCommand op payload (s.txbuf.writeAll 0 payload) s)
      = .next (judgedBy frame (takenResponse frame (s.rxbuf.writeAll 0 frame)
          { sentCommand op payload wire (s.txbuf.writeAll 0 payload) s with rxStream := more })) := by
    rw [meanwhile, if_pos (show (startedCommand ..).chanReady = true from hready),
      sendAll_started _ hfits hwire, andThen_next]
    exact receive_framed rfl rfl hframed hstream
  rw [exchange, beginExchange_started hp hop hfits, andThen_next, hmeanwhile, andThen_next]
  refine (settle_judgedBy task hframed rfl (stored_writeAll frame _) rfl).trans ?_
  rw [endedExchange, hlength]
  rfl

/-- The exchange with its wire bytes and its buffers. -/
theorem exists_exchange {frame more : List Byte} (hready : s.chanReady = true) (hop : isOperation op = true)
    (hfits : payload.length ≤ 251) (hframed : Framed frame) (hstream : s.rxStream = frame ++ more) :
    ∃ wire tx rx, encodeFrame s.addr op payload = .ok wire ∧ Stored payload s.txbuf tx ∧ Stored frame s.rxbuf rx
      ∧ exchange task op payload s = .next
        (endedExchange op wire frame more tx rx (exchangeResult (resultOf task s.params) s.params op frame) s) := by
  obtain ⟨wire, hwire⟩ := exists_encodeFrame s.addr op hfits
  exact ⟨wire, _, _, hwire, stored_writeAll _ _, stored_writeAll _ _,
    exchange_framed task hp hready hop hfits hframed hstream hwire⟩

/-- A start that fails ends the exchange at once: nothing is sent and nothing taken (R174, R192). -/
theorem exchange_of_bad_start (hbad : isOperation op = false ∨ 251 < payload.length) :
    exchange task op payload s = .next
      { s with
        crc := 0xFFFF, txop := op, txlen := 0, txbuf := s.txbuf.writeAll 0 (payload.take 251), txidx := 0, phase := .idle
        resClass := .none, resCause := .none, resStatus := 0x00, answer := some ⟨.ok, 0⟩, task := none
        result := some (.error .program (if isOperation op then .payloadTooLong else .illegalOperation) (some 0)) } := by
  have hmeanwhile (t : State) (ht : t.phase = .failed) : meanwhile t = .next t := by
    rw [meanwhile, sendAll_of_not_sending _ (by simp [ht]), andThen_next,
      receive_of_not_receiving (by simp [ht]) (by simp [ht]),
      exec_validate_ignored (by simp [ht]), ite_self]
  rw [exchange, beginExchange_failed hp hbad, andThen_next, hmeanwhile _ rfl, andThen_next]
  exact settle_of_failed task rfl

/-- While the channel takes no byte the host waits with the command staged and started (R192). -/
theorem exchange_of_not_ready (hready : s.chanReady = false) (hop : isOperation op = true)
    (hfits : payload.length ≤ 251) :
    exchange task op payload s
      = .next { startedCommand op payload (s.txbuf.writeAll 0 payload) s with task := some task } := by
  rw [exchange, beginExchange_started hp hop hfits, andThen_next, meanwhile,
    if_neg (Bool.eq_false_iff.mp (show (startedCommand ..).chanReady = false from hready))]
  rfl

end

/-! ## The obligations -/

/-- Settles O45: the exchange, read out as `xchg` does. -/
theorem pseudoXchg : Obligations.PseudoXchg := fun _ _ _ _ _ hp hready hop hfits hframed hstream =>
  exists_exchange .xchg hp hready (isOperation_iff.mpr hop) hfits hframed hstream

/-- Settles O46: each public operation is the exchange with its code, its payload and its read-out. -/
theorem publicOperations : Obligations.PublicOperations := by
  intro frame more s hp hready hframed hstream
  have hbuilt (task : Task) {op : Byte} (hop : isOperation op = true) {payload : List Byte}
      {built : Except Failure (List Byte)} (hok : built = .ok payload) (hfits : payload.length ≤ 251) :
      ∃ wire tx rx, encodeFrame s.addr op payload = .ok wire ∧ Stored payload s.txbuf tx ∧ Stored frame s.rxbuf rx
        ∧ exchangeBuilt task op built s = .next
          (endedExchange op wire frame more tx rx (exchangeResult (resultOf task s.params) s.params op frame) s) := by
    subst hok
    exact exists_exchange task hp hready hop hfits hframed hstream
  refine ⟨?info, ?inventory, fun c payload hok hfits => ?read,
    fun c payload hok hfits => ?write, fun c payload hok hfits => ?kill⟩
  case info => exact exists_exchange .readerInformation hp hready (by decide) (Nat.zero_le _) hframed hstream
  case inventory => exact exists_exchange .inventory hp hready (by decide) (Nat.zero_le _) hframed hstream
  case read => exact hbuilt .readData (by decide) hok hfits
  case write => exact hbuilt .writeData (by decide) hok hfits
  case kill => exact hbuilt .kill (by decide) hok hfits

/-- Settles O47: a rejected record issues nothing, and a failed start is read out at once. -/
theorem pseudoRejected : Obligations.PseudoRejected := by
  have hrejected (task : Task) (op : Byte) {built : Except Failure (List Byte)} {e : Failure} (s : State)
      (h : built = .error e) : exchangeBuilt task op built s = .next (rejectRecord e s) := by
    subst h
    rfl
  refine ⟨fun c e s h => hrejected _ _ s h, fun c e s h => hrejected _ _ s h, fun c e s h => hrejected _ _ s h,
    fun op payload s hp hbad => ⟨_, stored_writeAll _ _, ?_⟩⟩
  have hstart := exchange_of_bad_start .xchg hp
    (hbad.imp_left fun hop => Bool.eq_false_iff.mpr (mt isOperation_iff.mp hop))
  refine hstart.trans ?_
  simp only [isOperation_iff]

/-- The first quiet step after the exchange has ended is the read-out of the host that waits (R192). -/
theorem step_of_ended {s : State} {task : Task} (hmoments : s.moments = []) (htask : s.task = some task)
    (hp : s.phase = .success ∨ s.phase = .failed) : step s = settle task s := by
  have hbyte : NoByte (quietMoment s) s := fun _ => by rcases hp with hp | hp <;> simp [hp]
  have hdone : done s = true := by rcases hp with hp | hp <;> simp [hp, done]
  rw [step, nextAction_of_nothing_offered hmoments hbyte (by rcases hp with hp | hp <;> simp [hp]), htask]
  dsimp only
  rw [if_pos hdone]

/-- Settles O48: in the invariant the payload that the read-out gives is that of the received bytes. -/
theorem waitingHost : Obligations.WaitingHost := by
  refine ⟨fun op payload s hp hready hop hfits => ?waiting, fun task s hinv hmoments htask hp => ?success,
    fun task s hmoments htask hp => ?failed⟩
  case waiting =>
    exact ⟨_, stored_writeAll _ _, exchange_of_not_ready .xchg hp hready (isOperation_iff.mpr hop) hfits⟩
  case success =>
    obtain ⟨hlong, hcomplete, ⟨hwritten, -, -⟩, -, -, -⟩ := hinv.success hp
    have hlong : 5 ≤ s.rxlen.toNat := hlong
    have hlen : ((s.rxbuf.span (s.rxlen.toNat - 1)).drop 4).length + 5 = s.rxlen.toNat := by
      rw [List.length_drop, Memory.length_span]
      omega
    rw [step_of_ended hmoments htask (.inl hp), settle_of_success task hp hlen fun j hj => ?byte]
    case byte =>
      rw [List.getElem?_drop, Memory.getElem?_span_of_isSome (by omega) (hwritten _ (by omega))]
    cases task <;> rfl
  case failed =>
    rw [step_of_ended hmoments htask (.inr hp), settle_of_failed task hp]
    rfl

end Sys2Proof.Machine
end
